-- ==== Sys2Proof/Word.lean ====
section
/-! DEFINITION. The plain value types of the block (spec 00_scope.md R21, R22: every value is unsigned). -/

namespace Sys2Proof

/-- One byte of a frame, a buffer or the EDID image: `u8` (R22). -/
abbrev Byte := BitVec 8

/-- A CEC logical address: `u4` (R13). -/
abbrev LogicalAddr := BitVec 4

/-- An HDMI physical address: `u16` (R91). -/
abbrev PhysicalAddr := BitVec 16

/-- A value of the monotonic microsecond clock: `u64`, TIME_W = 64 (R18, R102). -/
abbrev Time := BitVec 64

/-- The polarity of a line edge (R101): `falling` is F, `rising` is R. -/
inductive Polarity where
  | falling
  | rising
  deriving DecidableEq, Repr, Inhabited

end Sys2Proof
end

