-- ==== Sys2Proof/Config.lean ====
section
/-! DEFINITION. The implementation parameters of spec 00_scope.md section 4 (R9 to R20) and the free values.
A parameter the spec gives a value is a definition; a parameter the spec leaves OPEN is an `opaque` constant
without a body, so that nothing proved can lean on a value of it. -/

namespace Sys2Proof

/-- A receiver timing window, an interval inclusive at both ends, in microseconds (R9, R25). -/
structure Window where
  lo : Nat
  hi : Nat
  deriving DecidableEq, Repr

namespace Config

/-! ### Receiver windows (R9) -/

/-- RX_START_LOW: start bit, falling edge to rising edge. -/
def rxStartLow : Window := ⟨3500, 3900⟩
/-- RX_START_PERIOD: start bit, falling edge to the next falling edge. -/
def rxStartPeriod : Window := ⟨4300, 4700⟩
/-- RX_BIT1_LOW: data, EOM or ACK bit, falling to rising edge, logical 1. -/
def rxBit1Low : Window := ⟨400, 800⟩
/-- RX_BIT0_LOW: data, EOM or ACK bit, falling to rising edge, logical 0. -/
def rxBit0Low : Window := ⟨1300, 1700⟩
/-- RX_BIT_PERIOD: data, EOM or ACK bit, falling edge to the next falling edge. -/
def rxBitPeriod : Window := ⟨2050, 2750⟩
/-- RX_ACK_DRIVE: how long the receiver holds the line low to assert ACK. -/
def rxAckDrive : Nat := 1500

/-! ### Transmitter durations (R10) -/

/-- TX_START_LOW: start bit low time. -/
def txStartLow : Nat := 3700
/-- TX_START_PERIOD: start bit total slot. -/
def txStartPeriod : Nat := 4500
/-- TX_BIT1_LOW: data or EOM bit low time for logical 1. -/
def txBit1Low : Nat := 600
/-- TX_BIT0_LOW: data or EOM bit low time for logical 0. -/
def txBit0Low : Nat := 1500
/-- TX_BIT_PERIOD: data, EOM or ACK bit total slot. -/
def txBitPeriod : Nat := 2400
/-- TX_ACK_LOW: the initiator's low time in the ACK slot. -/
def txAckLow : Nat := 600
/-- TX_ACK_SAMPLE: the ACK sample point, measured from the ACK slot's falling edge (90_conflicts.md C2). -/
def txAckSample : Nat := 1050

/-! ### Bus-free wait, frame size, addresses (R11 to R13) -/

/-- FREE_BIT_TIME, the spacing of the bus-free samples. -/
def freeBitTime : Nat := 2400
/-- FREE_BIT_COUNT, how many consecutive high samples end the bus-free wait. -/
def freeBitCount : Nat := 7
/-- MAX_FRAME_BYTES, the size of both frame buffers (R12). -/
def maxFrameBytes : Nat := 16
/-- BROADCAST, the destination that addresses every device (R13). -/
def broadcast : LogicalAddr := 0xF
/-- ROOT, the root device's address (R13). -/
def root : LogicalAddr := 0x0
/-- CANDIDATES, in list order (R13). -/
def candidates : Vector LogicalAddr 4 := #v[0x4, 0x8, 0xB, 0xF]

/-! ### EDID constants (R14, R481) -/

/-- EDID_SIZE, the length of a complete answer. -/
def edidSize : Nat := 256
/-- EDID_BLOCK, the length of one block. -/
def edidBlock : Nat := 128
/-- EDID_HEADER, the first eight bytes of the base block. -/
def edidHeader : List Byte := [0x00, 0xFF, 0xFF, 0xFF, 0xFF, 0xFF, 0xFF, 0x00]
/-- CTA_TAG, the bytes at extension offsets 0 and 1. -/
def ctaTag : Byte × Byte := (0x02, 0x03)
/-- DBC_START, the extension offset where the data-block collection starts. -/
def dbcStart : Nat := 4
/-- DTD_PTR, the extension offset that holds the detailed-timing-descriptor start. -/
def dtdPtr : Nat := 2
/-- HDMI_OUI 0x000C03 in the order its bytes are stored, least significant first (R149). -/
def hdmiOuiStored : List Byte := [0x03, 0x0C, 0x00]
/-- VSDB_TAG, the tag of a Vendor-Specific Data Block (R481). -/
def vsdbTag : BitVec 3 := 3
/-- PA_UNKNOWN. -/
def paUnknown : PhysicalAddr := 0x0000
/-- EDID_I2C_ADDR: OPEN (R14, D40; notes/assumptions/3.md). -/
opaque edidI2cAddr : BitVec 7
/-- EDID_TIMEOUT in microseconds: OPEN (R14, D40; notes/assumptions/3.md). -/
opaque edidTimeout : Nat

/-! ### Reply constants (R15) -/

/-- POWER_STATUS. -/
def powerStatus : Byte := 0x00
/-- AUDIO_STATUS: OPEN (R15, D27; notes/assumptions/3.md). -/
opaque audioStatus : Byte
/-- SAM_STATUS: OPEN (R15, D27; notes/assumptions/3.md). -/
opaque samStatus : Byte
/-- The first byte of OSD_NAME: OPEN (R15, D27; notes/assumptions/3.md). -/
opaque osdNameHead : Byte
/-- What follows the first byte of OSD_NAME, of which `osdName` keeps at most 13: OPEN (R15, D27). -/
opaque osdNameTail : List Byte
/-- OSD_NAME, 1 to 14 bytes and otherwise free: every list of that length is some choice of the two constants. -/
def osdName : List Byte := osdNameHead :: osdNameTail.take 13
/-- DEVICE_TYPE: OPEN (R15, D27; notes/assumptions/3.md). -/
opaque deviceType : Byte
/-- VENDOR_ID, 24 bits: OPEN (R15, D27; notes/assumptions/3.md). -/
opaque vendorId : BitVec 24
/-- CEC_VERSION: OPEN (R15, D27; notes/assumptions/3.md). -/
opaque cecVersion : Byte

/-! ### Keycodes and the key channel (R16, R17) -/

/-- NO_KEY, the "no key" sentinel: OPEN (R16, D35; notes/assumptions/3.md). -/
opaque noKey : Byte
/-- Which keycode "Up" is, counted from NO_KEY + 1: OPEN (R16, D35). -/
opaque keyUpOffset : Fin 255
/-- Which keycode each UI command is mapped to, counted from NO_KEY + 1, or unmapped: OPEN (R16, D35). -/
opaque keymapOffset : Byte → Option (Fin 255)
/-- The keycode at an offset from NO_KEY + 1: every byte but NO_KEY is one, and NO_KEY is none (R16's constraint). -/
def keycode (o : Fin 255) : Byte := noKey + 1#8 + BitVec.ofNat 8 o.val
/-- KEY_UP, the keycode of UI command 0x01 (R16). -/
def keyUp : Byte := keycode keyUpOffset
/-- KEYMAP, the 256-entry table from a UI command to a keycode or "unmapped"; entry 0x01 is mapped (R16, R107). -/
def keymap (u : Byte) : Option Byte :=
  if u = 0x01#8 then some keyUp else (keymapOffset u).map keycode
/-- KEYQ_DEPTH less one: OPEN (R17, D36; notes/assumptions/3.md). -/
opaque keyqDepthLessOne : Nat
/-- KEYQ_DEPTH, the key channel's capacity, at least 1 (R17). -/
def keyqDepth : Nat := keyqDepthLessOne + 1
/-- KEYQ_WAIT in microseconds: OPEN (R17, D36; notes/assumptions/3.md). -/
opaque keyqWait : Nat

/-! ### Latency bounds and extensions (R19, R20) -/

/-- LAT_EDGE in microseconds: OPEN (R19, D8; notes/assumptions/3.md). -/
opaque latEdge : Nat
/-- LAT_TIMER in microseconds: OPEN (R19, D8; notes/assumptions/3.md). -/
opaque latTimer : Nat
/-- EXTRA_HANDLERS; the spec's value is the empty set (R20, R447). -/
def extraHandlers : List Byte := []

/-- The opcode-name table (R107, R205): a constant table of 256 entries that only names log events. -/
def opcodeName (op : Byte) : Option String :=
  match op.toNat with
  | 0x04 => some "Image View On"
  | 0x0D => some "Text View On"
  | 0x36 => some "Standby"
  | 0x44 => some "User Control Pressed"
  | 0x45 => some "User Control Released"
  | 0x46 => some "Give OSD Name"
  | 0x47 => some "Set OSD Name"
  | 0x70 => some "System Audio Mode Request"
  | 0x71 => some "Give Audio Status"
  | 0x72 => some "Set System Audio Mode"
  | 0x7A => some "Report Audio Status"
  | 0x7D => some "Give System Audio Mode Status"
  | 0x7E => some "Report System Audio Mode Status"
  | 0x80 => some "Routing Change"
  | 0x81 => some "Report Menu Language"
  | 0x82 => some "Active Source"
  | 0x83 => some "Give Physical Address"
  | 0x84 => some "Report Physical Address"
  | 0x85 => some "Request Active Source"
  | 0x86 => some "Set Stream Path"
  | 0x87 => some "Device Vendor ID"
  | 0x8C => some "Give Device Vendor ID"
  | 0x8E => some "Menu Status"
  | 0x8F => some "Give Device Power Status"
  | 0x90 => some "Report Power Status"
  | 0x91 => some "Get Menu Language"
  | 0x9D => some "Inactive Source"
  | 0x9E => some "CEC Version"
  | 0x9F => some "Get CEC Version"
  | 0xA0 => some "Vendor Command With ID"
  | 0xFF => some "Abort"
  | _ => none

end Config

/-- What the EDID agent puts on `edid_rsp` (R110, R471). No answer at all is the block's own Timeout. -/
inductive EdidAnswer where
  /-- An answer of some bytes; the read wants exactly 256 of them. -/
  | ok (image : List Byte)
  /-- Any other failure of the transaction. -/
  | busError
  deriving DecidableEq, Repr, Inhabited

/-- Who moves next (R8: "any enabled agent may step"), or that time passes. One move is one agent step of R573,
one liberty of an outside agent (R670), or a stretch of time between steps. -/
inductive Move where
  /-- RX takes the pending edge (R240). -/
  | rx
  /-- RXA: `rxa_timer` expires (R262). -/
  | rxa
  /-- TX: `tx_timer` expires (R303 to R314). -/
  | tx
  /-- The bus-free sample: `free_timer` expires (R301). -/
  | freeSample
  /-- PC goes on from the operation it is blocked in (R510). -/
  | pc
  /-- Time passes, in microseconds. -/
  | wait (us : Nat)
  /-- ENV pulls the line low, or releases it (R99). -/
  | env (low : Bool)
  /-- The EDID agent answers the open transaction (R471). -/
  | edid (answer : EdidAnswer)
  /-- HOST removes the head of the key channel (R586). -/
  | host
  deriving DecidableEq, Repr, Inhabited

/-- The free value behind every order, latency and outside act the spec leaves open (R570, R471, R586, R99, R19;
93_implementation_defined.md I9, I10, I12 to I14): the move taken at a draw, when State.schedule names none.
No body: nothing can evaluate it (notes/assumptions/2.md). -/
opaque Config.freeMove : Nat → Move

/-- The free value behind a frame entered as sent while `tx.len` has no value, by the number of frames entered before:
no rule says which frame that is. DESIGN CHOICE, safe (notes/assumptions/16.md). -/
opaque Config.sentWithoutLength : Nat → List Byte

end Sys2Proof
end

