-- ==== Sys2Proof/Syntax.lean ====
section
/-! DEFINITION. The instructions: the CEC message kinds, one constructor per row of spec/opcode_table.json
(R7 (a), R194, R205). -/

namespace Sys2Proof

/-- The header, frame byte 0: initiator in the high nibble, destination in the low nibble (R147, R190). -/
structure Header where
  init : LogicalAddr
  dst : LogicalAddr
  deriving DecidableEq, Repr, Inhabited

/-- A delivered frame as the message it is: a Poll has its header only, every other message its header and its
operands, frame bytes 2 to n-1 (R192); an opcode without a name carries its own byte (R404). -/
inductive Instr where
  | poll (h : Header)
  | imageViewOn (h : Header) (ops : List Byte)
  | textViewOn (h : Header) (ops : List Byte)
  | standby (h : Header) (ops : List Byte)
  | userControlPressed (h : Header) (ops : List Byte)
  | userControlReleased (h : Header) (ops : List Byte)
  | giveOsdName (h : Header) (ops : List Byte)
  | setOsdName (h : Header) (ops : List Byte)
  | systemAudioModeRequest (h : Header) (ops : List Byte)
  | giveAudioStatus (h : Header) (ops : List Byte)
  | setSystemAudioMode (h : Header) (ops : List Byte)
  | reportAudioStatus (h : Header) (ops : List Byte)
  | giveSystemAudioModeStatus (h : Header) (ops : List Byte)
  | reportSystemAudioModeStatus (h : Header) (ops : List Byte)
  | routingChange (h : Header) (ops : List Byte)
  | reportMenuLanguageAsNamed (h : Header) (ops : List Byte)
  | activeSource (h : Header) (ops : List Byte)
  | givePhysicalAddress (h : Header) (ops : List Byte)
  | reportPhysicalAddress (h : Header) (ops : List Byte)
  | requestActiveSource (h : Header) (ops : List Byte)
  | setStreamPath (h : Header) (ops : List Byte)
  | deviceVendorId (h : Header) (ops : List Byte)
  | giveDeviceVendorId (h : Header) (ops : List Byte)
  | menuStatus (h : Header) (ops : List Byte)
  | giveDevicePowerStatus (h : Header) (ops : List Byte)
  | reportPowerStatus (h : Header) (ops : List Byte)
  | getMenuLanguage (h : Header) (ops : List Byte)
  | inactiveSource (h : Header) (ops : List Byte)
  | cecVersion (h : Header) (ops : List Byte)
  | getCecVersion (h : Header) (ops : List Byte)
  | vendorCommandWithId (h : Header) (ops : List Byte)
  | abort (h : Header) (ops : List Byte)
  | unnamedOpcode (op : Byte) (h : Header) (ops : List Byte)
  deriving DecidableEq, Repr, Inhabited

end Sys2Proof
end

