-- ==== Sys2Proof/WellFormed.lean ====
section
/-! DEFINITION. Which instruction terms stand for a frame: at most 14 operand bytes (R12, R192, R360), and the
default row only for an opcode byte that no named row matches (R205, R210, R404). -/

namespace Sys2Proof

/-- The operands, frame bytes 2 to n-1; a Poll has none (R192, R194). -/
def Instr.operands : Instr → List Byte
  | .poll _ => []
  | .imageViewOn _ ops => ops
  | .textViewOn _ ops => ops
  | .standby _ ops => ops
  | .userControlPressed _ ops => ops
  | .userControlReleased _ ops => ops
  | .giveOsdName _ ops => ops
  | .setOsdName _ ops => ops
  | .systemAudioModeRequest _ ops => ops
  | .giveAudioStatus _ ops => ops
  | .setSystemAudioMode _ ops => ops
  | .reportAudioStatus _ ops => ops
  | .giveSystemAudioModeStatus _ ops => ops
  | .reportSystemAudioModeStatus _ ops => ops
  | .routingChange _ ops => ops
  | .reportMenuLanguageAsNamed _ ops => ops
  | .activeSource _ ops => ops
  | .givePhysicalAddress _ ops => ops
  | .reportPhysicalAddress _ ops => ops
  | .requestActiveSource _ ops => ops
  | .setStreamPath _ ops => ops
  | .deviceVendorId _ ops => ops
  | .giveDeviceVendorId _ ops => ops
  | .menuStatus _ ops => ops
  | .giveDevicePowerStatus _ ops => ops
  | .reportPowerStatus _ ops => ops
  | .getMenuLanguage _ ops => ops
  | .inactiveSource _ ops => ops
  | .cecVersion _ ops => ops
  | .getCecVersion _ ops => ops
  | .vendorCommandWithId _ ops => ops
  | .abort _ ops => ops
  | .unnamedOpcode _ _ ops => ops

/-- The opcode bytes of the named rows (R205), in the table's order. -/
def namedOpcodes : List Byte :=
  [0x04, 0x0D, 0x36, 0x44, 0x45, 0x46, 0x47, 0x70, 0x71, 0x72, 0x7A] ++
  [0x7D, 0x7E, 0x80, 0x81, 0x82, 0x83, 0x84, 0x85, 0x86, 0x87] ++
  [0x8C, 0x8E, 0x8F, 0x90, 0x91, 0x9D, 0x9E, 0x9F, 0xA0, 0xFF]

/-- The operands fit in a frame: a frame has at most 14 bytes after the opcode (R12). -/
def Instr.operandsFit (i : Instr) : Bool := i.operands.length ≤ 14

/-- The default row holds an opcode byte that no named row matches. -/
def Instr.opcodeIsFree : Instr → Bool
  | .unnamedOpcode op _ _ => !namedOpcodes.contains op
  | _ => true

/-- The terms that are instructions: every check holds. -/
def Instr.wellFormed (i : Instr) : Bool := i.operandsFit && i.opcodeIsFree

end Sys2Proof
end

