-- ==== Sys2Proof/Decode.lean ====
section
/-! DEFINITION. Decoding a delivered frame, total on every byte string and rejecting by name, and the encoder
(30_encoding.md sections 2 to 4). The line-level encoding of bits is in Machine/Receiver.lean and
Machine/Transmitter.lean. -/

namespace Sys2Proof

/-- Why a byte string is no frame (R360): a frame has 1 to 16 bytes. -/
inductive DecodeError where
  /-- No byte at all. -/
  | emptyFrame
  /-- More than MAX_FRAME_BYTES bytes. -/
  | frameTooLong
  deriving DecidableEq, Repr, Inhabited

/-- What the decoder answers. -/
inductive Decoded where
  | message (i : Instr)
  | rejected (e : DecodeError)
  deriving DecidableEq, Repr, Inhabited

/-- The initiator of a header byte, `header[7:4]` (R147, R197). -/
def initiatorOf (b : Byte) : LogicalAddr := b.extractLsb' 4 4

/-- The destination of a header byte, `header[3:0]` (R147, R197). -/
def destinationOf (b : Byte) : LogicalAddr := b.extractLsb' 0 4

/-- The header a byte stands for (R190). -/
def headerOf (b : Byte) : Header := ⟨initiatorOf b, destinationOf b⟩

/-- The header byte, `initiator ++ destination` (R147). -/
def headerByte (h : Header) : Byte := h.init ++ h.dst

/-- The message an opcode byte selects (R191, R205); every byte selects one, an opcode without a name the default
row (R210, R404). -/
def messageOf (op : Byte) (h : Header) (ops : List Byte) : Instr :=
  match op.toNat with
  | 0x04 => .imageViewOn h ops
  | 0x0D => .textViewOn h ops
  | 0x36 => .standby h ops
  | 0x44 => .userControlPressed h ops
  | 0x45 => .userControlReleased h ops
  | 0x46 => .giveOsdName h ops
  | 0x47 => .setOsdName h ops
  | 0x70 => .systemAudioModeRequest h ops
  | 0x71 => .giveAudioStatus h ops
  | 0x72 => .setSystemAudioMode h ops
  | 0x7A => .reportAudioStatus h ops
  | 0x7D => .giveSystemAudioModeStatus h ops
  | 0x7E => .reportSystemAudioModeStatus h ops
  | 0x80 => .routingChange h ops
  | 0x81 => .reportMenuLanguageAsNamed h ops
  | 0x82 => .activeSource h ops
  | 0x83 => .givePhysicalAddress h ops
  | 0x84 => .reportPhysicalAddress h ops
  | 0x85 => .requestActiveSource h ops
  | 0x86 => .setStreamPath h ops
  | 0x87 => .deviceVendorId h ops
  | 0x8C => .giveDeviceVendorId h ops
  | 0x8E => .menuStatus h ops
  | 0x8F => .giveDevicePowerStatus h ops
  | 0x90 => .reportPowerStatus h ops
  | 0x91 => .getMenuLanguage h ops
  | 0x9D => .inactiveSource h ops
  | 0x9E => .cecVersion h ops
  | 0x9F => .getCecVersion h ops
  | 0xA0 => .vendorCommandWithId h ops
  | 0xFF => .abort h ops
  | _ => .unnamedOpcode op h ops

/-- The message of a delivered frame (R194): one byte is a Poll, 2 to 16 bytes the message its opcode selects. -/
def decode : List Byte → Decoded
  | [] => .rejected .emptyFrame
  | [b] => .message (.poll (headerOf b))
  | b :: op :: ops =>
    if ops.length ≤ 14 then .message (messageOf op (headerOf b) ops) else .rejected .frameTooLong

/-- The header of an instruction. -/
def Instr.header : Instr → Header
  | .poll h => h
  | .imageViewOn h _ => h
  | .textViewOn h _ => h
  | .standby h _ => h
  | .userControlPressed h _ => h
  | .userControlReleased h _ => h
  | .giveOsdName h _ => h
  | .setOsdName h _ => h
  | .systemAudioModeRequest h _ => h
  | .giveAudioStatus h _ => h
  | .setSystemAudioMode h _ => h
  | .reportAudioStatus h _ => h
  | .giveSystemAudioModeStatus h _ => h
  | .reportSystemAudioModeStatus h _ => h
  | .routingChange h _ => h
  | .reportMenuLanguageAsNamed h _ => h
  | .activeSource h _ => h
  | .givePhysicalAddress h _ => h
  | .reportPhysicalAddress h _ => h
  | .requestActiveSource h _ => h
  | .setStreamPath h _ => h
  | .deviceVendorId h _ => h
  | .giveDeviceVendorId h _ => h
  | .menuStatus h _ => h
  | .giveDevicePowerStatus h _ => h
  | .reportPowerStatus h _ => h
  | .getMenuLanguage h _ => h
  | .inactiveSource h _ => h
  | .cecVersion h _ => h
  | .getCecVersion h _ => h
  | .vendorCommandWithId h _ => h
  | .abort h _ => h
  | .unnamedOpcode _ h _ => h

/-- The opcode byte of an instruction (R205); a Poll has none (R194). -/
def Instr.opcode : Instr → Option Byte
  | .poll _ => none
  | .imageViewOn _ _ => some 0x04#8
  | .textViewOn _ _ => some 0x0D#8
  | .standby _ _ => some 0x36#8
  | .userControlPressed _ _ => some 0x44#8
  | .userControlReleased _ _ => some 0x45#8
  | .giveOsdName _ _ => some 0x46#8
  | .setOsdName _ _ => some 0x47#8
  | .systemAudioModeRequest _ _ => some 0x70#8
  | .giveAudioStatus _ _ => some 0x71#8
  | .setSystemAudioMode _ _ => some 0x72#8
  | .reportAudioStatus _ _ => some 0x7A#8
  | .giveSystemAudioModeStatus _ _ => some 0x7D#8
  | .reportSystemAudioModeStatus _ _ => some 0x7E#8
  | .routingChange _ _ => some 0x80#8
  | .reportMenuLanguageAsNamed _ _ => some 0x81#8
  | .activeSource _ _ => some 0x82#8
  | .givePhysicalAddress _ _ => some 0x83#8
  | .reportPhysicalAddress _ _ => some 0x84#8
  | .requestActiveSource _ _ => some 0x85#8
  | .setStreamPath _ _ => some 0x86#8
  | .deviceVendorId _ _ => some 0x87#8
  | .giveDeviceVendorId _ _ => some 0x8C#8
  | .menuStatus _ _ => some 0x8E#8
  | .giveDevicePowerStatus _ _ => some 0x8F#8
  | .reportPowerStatus _ _ => some 0x90#8
  | .getMenuLanguage _ _ => some 0x91#8
  | .inactiveSource _ _ => some 0x9D#8
  | .cecVersion _ _ => some 0x9E#8
  | .getCecVersion _ _ => some 0x9F#8
  | .vendorCommandWithId _ _ => some 0xA0#8
  | .abort _ _ => some 0xFF#8
  | .unnamedOpcode op _ _ => some op

/-- The frame of an instruction: header, opcode, operands (R190 to R192). -/
def encode (i : Instr) : List Byte :=
  match i.opcode with
  | none => [headerByte i.header]
  | some op => headerByte i.header :: op :: i.operands

/-- The frame whose bits are the number `w` as spec/opcode_table.json numbers them. The table reads the first two
bytes as ONE number `f[0] ++ f[1]`, with the opcode in bits 7..0 and the header in bits 15..8, and a Poll's only
byte as bits 7..0; byte k of a longer frame is bits 8k+7..8k (notes/assumptions/4.md). -/
def frameOfWord (nbits w : Nat) : List Byte :=
  if nbits ≤ 8 then [BitVec.ofNat 8 w]
  else
    BitVec.ofNat 8 (w / 256) :: BitVec.ofNat 8 w ::
      (List.range (min ((nbits + 7) / 8) 16 - 2)).map fun k => BitVec.ofNat 8 (w / 256 ^ (k + 2))

/-- The instruction the decoder reads from a table word. -/
def decodeTableWord (nbits w : Nat) : Option Instr :=
  match decode (frameOfWord nbits w) with
  | .message i => some i
  | .rejected _ => none

end Sys2Proof
end

