-- ==== Sys2Proof/Machine/State.lean ====
section
/-! DEFINITION. The state of the block (10_state.md), the reasons a step can stop, and power-on reset.
State is plain data. An `Option` here is the spec's own "no value" (R623: state that holds nothing a rule may read),
an empty slot (R104) or a disarmed timer (R103); see notes/assumptions/1.md. -/

namespace Sys2Proof.Machine

/-- A byte buffer of MAX_FRAME_BYTES bytes: the bytes that differ from 0x00, by strictly rising address.
An unlisted address of the buffer reads 0x00, the value of every byte at POR (R72, R82). -/
abbrev Memory := List Host.Cell

/-! ### The receiver record (10_state.md section 3) -/

/-- `rx.phase` (R64). -/
inductive RxPhase where
  | idle | awaitStart | startLow | startHigh | dataLow | dataHigh
  | eomLow | eomHigh | ackLow | ackHigh | done | abort
  deriving DecidableEq, Repr, Inhabited

/-- `rx` (R64 to R74). -/
structure Rx where
  /-- The receiver's phase (R64). -/
  phase : RxPhase
  /-- Index of the frame byte being received, u4 (R66). -/
  byte : BitVec 4
  /-- Bit position being received, counting down from 7 (R67). -/
  bit : Fin 8
  /-- Clock value of the most recent accepted falling edge, or no value (R68). -/
  tref : Option Time
  /-- The receiver is pulling the line low for an ACK bit (R69). -/
  ackActive : Bool
  /-- The EOM bit of the byte being received (R70). -/
  eom : Bool
  /-- The address compared with each frame's destination, or no value (R71). -/
  target : Option LogicalAddr
  /-- The receive buffer, 16 bytes (R72). -/
  buf : Memory
  /-- The receive result, 0 to 16, or no value (R73). -/
  len : Option (Fin 17)
  /-- The cause code of the last abort, 0 for none (R74). -/
  cause : Byte
  deriving DecidableEq, Repr

/-! ### The transmitter record (10_state.md section 4) -/

/-- `tx.phase` (R80): what the transmitter's next timer callback does. -/
inductive TxPhase where
  | idle | startLow | startHigh | dataLow | dataHigh
  | eomLow | eomHigh | ackLow | ackHigh | ackWait | done
  deriving DecidableEq, Repr, Inhabited

/-- `tx` (R80 to R86). -/
structure Tx where
  /-- The transmitter's phase (R80). -/
  phase : TxPhase
  /-- The frame being sent, 16 bytes (R82). -/
  frame : Memory
  /-- Its length, 1 to 16, or no value (R82). -/
  len : Option (Fin 17)
  /-- Index of the frame byte being sent, u4 (R83). -/
  byte : BitVec 4
  /-- Bit being sent, counting down from 7 (R84). -/
  bit : Fin 8
  /-- Clock value at which the StartLow callback ran, or no value (R85). -/
  t0 : Option Time
  /-- Every ACK slot sampled so far read the line low (R86). -/
  ack : Bool
  deriving DecidableEq, Repr

/-! ### Causes, log events and actions -/

/-- The error kinds of the cause-code table (R551). -/
inductive Cause where
  | rxStartLowTiming | rxStartPeriodTiming | rxDataLowTiming | rxDataPeriodTiming
  | rxEomLowTiming | rxEomPeriodTiming | rxAckLowTiming | rxAckPeriodTiming
  | rxUnexpectedEdge | rxFrameOverflow
  | edidTimeoutErr | edidBusErr | edidBaseChecksum | edidHeaderErr | edidExtChecksum | edidNoCta | edidNoVsdb
  | addressExhausted
  | unrecognized | keyUnmapped | keyDropped | malformed
  deriving DecidableEq, Repr, Inhabited

/-- The kind of a log event (R590). -/
inductive LogKind where
  | rx | edid | alloc | dispatch | key
  deriving DecidableEq, Repr, Inhabited

/-- What a log event records (R552, R590). -/
inductive LogInfo where
  /-- A receive aborted: the cause, the phase the receiver was in and the measured interval where one was read. -/
  | rxAbort (cause : Cause) (phase : RxPhase) (d : Option Time)
  /-- A resolve failed. -/
  | edidError (cause : Cause)
  /-- All four candidates were acknowledged. -/
  | addressExhausted
  /-- A message with no handler: opcode and frame length. -/
  | unrecognized (op : Byte) (n : Nat)
  /-- A UI command with no keycode. -/
  | keyUnmapped (u : Byte)
  /-- A handled message without its operand: opcode and frame length. -/
  | malformed (op : Byte) (n : Nat)
  /-- A keycode the full channel lost. -/
  | keyDropped (k : Byte)
  deriving DecidableEq, Repr, Inhabited

/-- One entry of `logq`: `(now, kind, info)` (R590). -/
structure LogEntry where
  time : Time
  kind : LogKind
  info : LogInfo
  deriving DecidableEq, Repr

/-- One action of a dispatch's list (R400). -/
inductive Action where
  | send (frame : List Byte)
  | key (k : Byte)
  | log (info : LogInfo)
  | reannounce
  deriving DecidableEq, Repr, Inhabited

/-! ### The protocol-context record (10_state.md section 5) -/

/-- `pc.point`: the labels of the program (R93, R511). -/
inductive Point where
  | boot | resolve | alloc | announce | receive | dispatch | act
  deriving DecidableEq, Repr, Inhabited

/-- Which `send` of the program is running (R511, R513, R515): its result is used only for a poll (R382). -/
inductive SendFor where
  | poll | announce | reply
  deriving DecidableEq, Repr, Inhabited

/-- Where PC is inside the code of its label: running, or blocked in one of the operations of R510.
State R510 implies and does not name (notes/assumptions/5.md). -/
inductive PcOp where
  /-- At the first line of the label `pc.point`; not blocked. -/
  | run
  /-- At the loop body of `allocate` for `pc.alloc_i` (R515); not blocked. -/
  | poll
  /-- At the announcement of a `Reannounce` (R430); not blocked. -/
  | announce
  /-- Blocked in `resolve()` until the EDID transaction answers (R471). -/
  | resolving
  /-- Blocked in `send(frame)` until the bus-free wait ends (R300). -/
  | freeWait (why : SendFor) (frame : List Byte)
  /-- Blocked in `send` until `TxDone` (R380). -/
  | sending (why : SendFor)
  /-- Blocked in `receive()` until `RxDone` (R383). -/
  | receiving
  /-- Blocked in `emit_key(k)` since that time (R585). -/
  | keying (k : Byte) (since : Time)
  deriving DecidableEq, Repr, Inhabited

/-- `pc` (R90 to R94). -/
structure Pc where
  /-- The device's logical address, or no value (R90). -/
  la : Option LogicalAddr
  /-- The device's physical address (R91). -/
  pa : PhysicalAddr
  /-- The bus-free wait's count of consecutive high samples, 0 to 7 (R92). -/
  freeCount : Fin 8
  /-- The program point (R93). -/
  point : Point
  /-- The candidate being polled (R94). -/
  allocI : Fin 4
  /-- The reactions still to be carried out (R94). -/
  actions : List Action
  /-- Where PC is inside its label's code (R510). -/
  op : PcOp
  deriving DecidableEq, Repr

/-! ### Line, timers, slot -/

/-- A line edge: its polarity and the time it happened (R101). -/
structure Edge where
  polarity : Polarity
  time : Time
  deriving DecidableEq, Repr

/-- An armed one-shot timer: when it is due and when it was armed (R103, R572). -/
structure Alarm where
  due : Time
  armedAt : Time
  deriving DecidableEq, Repr

/-- What the notification slot can hold (R104). -/
inductive Notification where
  | rxDone (n : Fin 17)
  | txDone (acked : Bool)
  deriving DecidableEq, Repr, Inhabited

/-- The open EDID transaction, `edid_req`: one read of 256 bytes at an address (R110, R471). -/
structure EdidRequest where
  addr : BitVec 7
  since : Time
  deriving DecidableEq, Repr

/-- A frame the block has sent, with its acknowledgement result (R665). -/
structure SentFrame where
  frame : List Byte
  acked : Bool
  deriving DecidableEq, Repr

/-- The whole machine. -/
structure State where
  /-- The receiver record (R64 to R74). -/
  rx : Rx
  /-- The transmitter record (R80 to R86). -/
  tx : Tx
  /-- The protocol-context record (R90 to R94). -/
  pc : Pc
  /-- The edge-notification enable (R96). -/
  edgeArmed : Bool
  /-- The edge that happened and RX has not taken yet; at most one (R566). -/
  edgePending : Option Edge
  /-- The receiver pulls the line low (R97). -/
  rxDrive : Bool
  /-- The transmitter pulls the line low (R98). -/
  txDrive : Bool
  /-- Another device pulls the line low: an input (R99). -/
  envLow : Bool
  /-- The monotonic microsecond clock (R102). -/
  clock : Time
  /-- The transmitter's one-shot timer; `none` is disarmed (R103). -/
  txTimer : Option Alarm
  /-- The receiver's ACK-release timer (R103). -/
  rxaTimer : Option Alarm
  /-- The bus-free wait's timer (R103). -/
  freeTimer : Option Alarm
  /-- The one-slot notification (R104). -/
  notifySlot : Option Notification
  /-- The open EDID transaction, `edid_req` (R110). -/
  edidReq : Option EdidRequest
  /-- The EDID agent's answer, until PC takes it, `edid_rsp` (R110, R141). -/
  edidRsp : Option EdidAnswer
  /-- The key channel, head first, `key_out` (R105). -/
  keyq : List Byte
  /-- The log, oldest first, `log_out` (R106). -/
  logq : List LogEntry
  /-- Observation of R665: the frames sent, oldest first. No rule reads it. -/
  framesSent : List SentFrame
  /-- Observation of R665: the frames received, oldest first. No rule reads it. -/
  framesReceived : List (List Byte)
  /-- The model's own: the moves to come, next first (R8, R570, R670; notes/assumptions/2.md). -/
  schedule : List Move
  /-- The model's own: how many free moves have been drawn (notes/assumptions/2.md). -/
  draws : Nat
  deriving DecidableEq, Repr

/-- Why the machine stops (R28, R553). Each marks a state the block's own discipline excludes; stopping there is safe. -/
inductive Fault where
  /-- NOTIFY_FULL: `notify(v)` into a full slot (R104); raised by RX and TX. Safe. -/
  | notifyFull
  /-- SEND_NOT_IDLE: `send` started against its `require` line (R380); raised by PC. Safe. -/
  | sendNotIdle
  /-- RECEIVE_NOT_IDLE: `receive` started against its `require` line (R383); raised by PC. Safe. -/
  | receiveNotIdle
  /-- HALF_DUPLEX: a receive and a send in flight at once, or a send with edges armed (R160); raised by any step. Safe. -/
  | halfDuplex
  /-- UNWRITTEN_READ: a read of state that has no value (R623): `pc.LA`, `rx.tref`, `rx.len`, `rx.target`, `tx.len`;
  raised by the rule that reads it. Safe. -/
  | unwrittenRead
  /-- INDEX_RANGE: a byte access outside its array (R24), raised by a buffer access or a fetch of no byte. Safe. -/
  | indexRange
  deriving DecidableEq, Repr

/-- Why the machine refuses (R553). -/
inductive Refusal where
  /-- An instruction that has no meaning yet; raised by exec only. Safe. -/
  | notModelled (mnemonic : String)
  /-- SEND_LENGTH: `send(f)` with no byte or more than 16 bytes (R213, R380); raised by PC. Safe. -/
  | sendLength
  deriving DecidableEq, Repr

/-- Power-on reset: the POR column of R111. `clock` is unspecified there and 0 here (DESIGN CHOICE,
notes/assumptions/1.md); the three fields that are the model's own are empty (notes/assumptions/2.md). -/
def State.reset : State where
  rx :=
    { phase := .idle, byte := 0, bit := 7, tref := none, ackActive := false, eom := false, target := none
      buf := [], len := none, cause := 0 }
  tx := { phase := .idle, frame := [], len := none, byte := 0, bit := 7, t0 := none, ack := false }
  pc := { la := none, pa := 0x0000, freeCount := 0, point := .boot, allocI := 0, actions := [], op := .run }
  edgeArmed := false
  edgePending := none
  rxDrive := false
  txDrive := false
  envLow := false
  clock := 0
  txTimer := none
  rxaTimer := none
  freeTimer := none
  notifySlot := none
  edidReq := none
  edidRsp := none
  keyq := []
  logq := []
  framesSent := []
  framesReceived := []
  schedule := []
  draws := 0

end Sys2Proof.Machine
end

