-- ==== Sys2Proof/Machine/Ops.lean ====
section
/-! DEFINITION. The named operations over buffers, line, timers, slot and log (00_scope.md section 5), the receiver's
abort (R560: the block's only trap) with the return from it beside it (R383, R576), and the two halves of a send. -/

namespace Sys2Proof.Machine

/-- What a step answers. -/
abbrev Result := Host.Outcome State Fault Refusal

/-- Go on from a next state; a fault or a refusal ends the step. -/
def andThen (r : Result) (k : State → Result) : Result :=
  match r with
  | .next s => k s
  | .fault f => .fault f
  | .refused e => .refused e

/-! ### Byte buffers (R24, R72, R82) -/

/-- The byte at an address; an unlisted address reads 0x00. -/
def Memory.get : Memory → Nat → Byte
  | [], _ => 0#8
  | (b, v) :: rest, a => if a = b then v else Memory.get rest a

/-- Store a byte, keeping the canonical form: an entry of 0x00 is not listed. -/
def Memory.put : Memory → Nat → Byte → Memory
  | [], a, v => if v = 0#8 then [] else [(a, v)]
  | (b, w) :: rest, a, v =>
    if a < b then (if v = 0#8 then (b, w) :: rest else (a, v) :: (b, w) :: rest)
    else if a = b then (if v = 0#8 then rest else (a, v) :: rest)
    else (b, w) :: Memory.put rest a v

/-- The canonical form from an address on: addresses rise, stay inside the buffer, and no entry is 0x00. -/
def Memory.wfFrom : Nat → Memory → Bool
  | _, [] => true
  | lo, (b, v) :: rest => decide (lo ≤ b) && decide (b < Config.maxFrameBytes) && (v != 0#8) && Memory.wfFrom (b + 1) rest

/-- The canonical form of a buffer. -/
def Memory.wf (m : Memory) : Bool := Memory.wfFrom 0 m

/-- `MemRead(buf, i, 1)` (R24); a u4 index is inside the 16 bytes. -/
def Memory.read (m : Memory) (i : BitVec 4) : Byte := m.get i.toNat

/-- `MemWrite(buf, i, 1, v)` (R24). -/
def Memory.write (m : Memory) (i : BitVec 4) (v : Byte) : Memory := m.put i.toNat v

/-- `bytes[0..n-1]` of a buffer (R22). -/
def Memory.bytes (m : Memory) (n : Nat) : List Byte := (List.range n).map m.get

/-- Write a list of bytes from an address on. -/
def Memory.putBytes : Memory → Nat → List Byte → Memory
  | m, _, [] => m
  | m, a, v :: rest => Memory.putBytes (m.put a v) (a + 1) rest

/-! ### Time (R25, R574) -/

/-- `elapsed(t0)`, a difference modulo 2^64 (R25). -/
def State.elapsed (s : State) (t0 : Time) : Time := s.clock - t0

/-- `a` is at or after `b` on the clock, read as a difference so that a wrap changes nothing (R574; DEDUCED,
notes/assumptions/6.md). -/
def atOrAfter (a b : Time) : Bool := (a - b).toNat < 2 ^ 63

/-- The later of two times, `max` of R572. -/
def latest (a b : Time) : Time := if atOrAfter a b then a else b

/-- A delay in microseconds as a time difference. -/
def micros (n : Nat) : Time := BitVec.ofNat 64 n

/-! ### Timers (R27, R572) -/

/-- From when an armed timer's step may run: `max(due, t_arm)` (R572). -/
def Alarm.ready (a : Alarm) : Time := latest a.due a.armedAt

/-- `schedule(timer, δ)` with its reference time: due at `ref + δ`, armed now (R572). -/
def State.alarm (s : State) (ref : Time) (delay : Nat) : Alarm := ⟨ref + micros delay, s.clock⟩

/-- Whether an armed timer's step is enabled (R103, R572). -/
def State.fires (s : State) (timer : Option Alarm) : Bool :=
  match timer with
  | none => false
  | some a => atOrAfter s.clock a.ready

/-! ### The line (R96 to R101, R566) -/

/-- The line is high: no driver pulls it low (R100). -/
def State.line (s : State) : Bool := !(s.rxDrive || s.txDrive || s.envLow)

/-- `cec_pull`: the block pulls the line low (R110). -/
def State.cecPull (s : State) : Bool := s.rxDrive || s.txDrive

/-- An edge happens: it becomes pending when edges are armed and none is pending, and leaves no trace otherwise (R566). -/
def State.edgeHappens (s : State) (p : Polarity) : State :=
  if s.edgeArmed && s.edgePending.isNone then { s with edgePending := some ⟨p, s.clock⟩ } else s

/-- The line after its drivers changed from those of `old` to those of `new`: a change of level is one edge (R101). -/
def lineChange (old new : State) : State :=
  if old.line = new.line then new else new.edgeHappens (if new.line then .rising else .falling)

/-- `drive_low(RX)` and `release(RX)` (R26, R97). -/
def State.driveRx (s : State) (low : Bool) : State := lineChange s { s with rxDrive := low }

/-- `drive_low(TX)` and `release(TX)` (R26, R98). -/
def State.driveTx (s : State) (low : Bool) : State := lineChange s { s with txDrive := low }

/-- ENV pulls the line low or releases it (R99). -/
def State.driveEnv (s : State) (low : Bool) : State := lineChange s { s with envLow := low }

/-! ### Notification and log (R104, R590) -/

/-- `notify(v)`: into an empty slot it stores `v`, into a full slot it is the fault NOTIFY_FULL (R104). -/
def notify (v : Notification) (s : State) : Result :=
  match s.notifySlot with
  | none => .next { s with notifySlot := some v }
  | some _ => .fault .notifyFull

/-- `log(kind, info)` appends `(now, kind, info)` (R590). -/
def State.log (s : State) (kind : LogKind) (info : LogInfo) : State :=
  { s with logq := s.logq ++ [⟨s.clock, kind, info⟩] }

/-- The numeric cause codes (R551). -/
def Cause.code : Cause → Byte
  | .rxStartLowTiming => 1
  | .rxStartPeriodTiming => 2
  | .rxDataLowTiming => 3
  | .rxDataPeriodTiming => 4
  | .rxEomLowTiming => 5
  | .rxEomPeriodTiming => 6
  | .rxAckLowTiming => 7
  | .rxAckPeriodTiming => 8
  | .rxUnexpectedEdge => 9
  | .rxFrameOverflow => 10
  | .edidTimeoutErr => 20
  | .edidBusErr => 21
  | .edidBaseChecksum => 22
  | .edidHeaderErr => 23
  | .edidExtChecksum => 24
  | .edidNoCta => 25
  | .edidNoVsdb => 26
  | .addressExhausted => 30
  | .unrecognized => 40
  | .keyUnmapped => 41
  | .keyDropped => 42
  | .malformed => 43

/-- The cause a log event records (R551: "every code is recorded in the log event"). -/
def LogInfo.cause : LogInfo → Cause
  | .rxAbort c _ _ => c
  | .edidError c => c
  | .addressExhausted => .addressExhausted
  | .unrecognized _ _ => .unrecognized
  | .keyUnmapped _ => .keyUnmapped
  | .malformed _ _ => .malformed
  | .keyDropped _ => .keyDropped

/-- The opcode name a log event is shown with (R107, R205). -/
def LogInfo.name : LogInfo → Option String
  | .unrecognized op _ => Config.opcodeName op
  | .malformed op _ => Config.opcodeName op
  | _ => none

/-! ### The abort and the return from it (R560, R575, R576, R383) -/

/-- `raise Abort(c)` in an RX step (R560): the cause, a length of 0, the log event with the phase before the write,
the phase Abort and `notify(RxDone(0))`. No other field of `rx` is written, so the abort is precise. `d` is the
interval the failing rule measured, `none` where it measured none (R552). -/
def raiseAbort (c : Cause) (d : Option Time) (s : State) : Result :=
  let logged := s.log .rx (.rxAbort c s.rx.phase d)
  notify (.rxDone 0) { logged with rx := { logged.rx with cause := c.code, len := some 0, phase := .abort } }

/-- The start of `receive()`, which is also the return from an abort (R383, R385, R576): the `require` line, the
receive-start column of R111, and `arm_edges()`. A start while `pc.LA` has no value is a fault (R71). -/
def receiveStart (s : State) : Result :=
  if s.tx.phase = .idle ∧ s.notifySlot = none ∧ s.rx.ackActive = false then
    match s.pc.la with
    | none => .fault .unwrittenRead
    | some la =>
      .next { s with
        rx :=
          { phase := .awaitStart, byte := 0, bit := 7, tref := none, ackActive := false, eom := false
            target := some la, buf := [], len := none, cause := 0 }
        edgeArmed := true
        pc := { s.pc with op := .receiving } }
  else .fault .receiveNotIdle

/-! ### The send operation (R380, R300) -/

/-- The start of `send(f)`: a frame of another length than 1 to 16 is refused, a block that is not idle is a fault,
and the bus-free wait begins (R300, R380). -/
def sendStart (why : SendFor) (f : List Byte) (s : State) : Result :=
  if f.length < 1 ∨ f.length > 16 then .refused .sendLength
  else if s.tx.phase = .idle ∧ s.notifySlot = none ∧ s.edgeArmed = false ∧ s.rx.ackActive = false then
    .next { s with
      pc := { s.pc with freeCount := 0, op := .freeWait why f }
      freeTimer := some (s.alarm s.clock Config.freeBitTime) }
  else .fault .sendNotIdle

/-- `send(f)` after its bus-free wait: the send-start column of R111 and the first callback, due now (R380). -/
def sendLaunch (why : SendFor) (f : List Byte) (s : State) : Result :=
  if h : f.length < 17 then
    .next { s with
      tx :=
        { phase := .startLow, frame := s.tx.frame.putBytes 0 f, len := some ⟨f.length, h⟩, byte := 0, bit := 7
          t0 := none, ack := true }
      txTimer := some (s.alarm s.clock 0)
      pc := { s.pc with op := .sending why } }
  else .refused .sendLength

/-! ### The key channel (R585) -/

/-- The channel has room (R585). -/
def State.keyRoom (s : State) : Bool := s.keyq.length < Config.keyqDepth

/-- The start of `emit_key(k)`: keep the key where there is room, else block (R585). -/
def emitKey (k : Byte) (s : State) : State :=
  if s.keyRoom then { s with keyq := s.keyq ++ [k] }
  else { s with pc := { s.pc with op := .keying k s.clock } }

/-- The end of `emit_key(k)` after its wait: keep the key where there is room now, else drop and log it (R585). -/
def emitKeyEnd (k : Byte) (s : State) : State :=
  let freed := { s with pc := { s.pc with op := .run } }
  if s.keyRoom then { freed with keyq := s.keyq ++ [k] } else freed.log .key (.keyDropped k)

/-- HOST removes the head of the key channel (R586). -/
def State.hostTakes (s : State) : State := { s with keyq := s.keyq.tail }

/-! ### What a dispatch answers (R400, R511) -/

/-- The end of the DISPATCH label: the action list is handed to ACT (R511). -/
def react (as : List Action) (s : State) : Result :=
  .next { s with pc := { s.pc with actions := as, point := .act } }

/-- A rule that reads `pc.LA`: without a value it is the fault UNWRITTEN_READ (R90). -/
def withLa (s : State) (k : LogicalAddr → Result) : Result :=
  match s.pc.la with
  | none => .fault .unwrittenRead
  | some la => k la

end Sys2Proof.Machine
end

