-- ==== Sys2Proof/Machine/Operands.lean ====
section
/-! DEFINITION. Operand assembly (30_encoding.md section 3): the fields of a delivered frame, and the multi-byte
operands with their byte order. -/

namespace Sys2Proof.Machine

/-- The frame length of a message with these operands: header, opcode, operands (R360). -/
def messageLength (ops : List Byte) : Nat := ops.length + 2

/-- A physical address from its high and its low byte (R198, R200). -/
def assemblePa (high low : Byte) : PhysicalAddr := high ++ low

/-- The physical-address operand whose first byte is operand `k` (frame index `k + 2`), most significant byte first;
`none` where the frame is too short (R148, R198). -/
def operandPa (ops : List Byte) (k : Nat) : Option PhysicalAddr :=
  match ops[k]?, ops[k + 1]? with
  | some high, some low => some (assemblePa high low)
  | _, _ => none

/-- The UI command of User Control Pressed, frame byte 2; `none` where the frame has no such byte (R199). -/
def operandUi (ops : List Byte) : Option Byte := ops[0]?

/-- The two bytes of a physical address as operands, most significant first (R148). -/
def paBytes (pa : PhysicalAddr) : List Byte := [pa.extractLsb' 8 8, pa.extractLsb' 0 8]

/-- The three bytes of a vendor ID as operands, most significant first (R148). -/
def vendorBytes (v : BitVec 24) : List Byte := [v.extractLsb' 16 8, v.extractLsb' 8 8, v.extractLsb' 0 8]

/-- The tag of a CTA data block's header byte, `h[7:5]` (R480). -/
def blockTag (h : Byte) : BitVec 3 := h.extractLsb' 5 3

/-- The payload length of a CTA data block's header byte, `h[4:0]` (R480). -/
def blockLength (h : Byte) : Nat := (h.extractLsb' 0 5).toNat

/-- The bytes of the frame the last receive delivered, `rx.buf[0..n-1]` with n = `rx.len` (R153, R374). -/
def State.deliveredBytes (s : State) (n : Fin 17) : List Byte := s.rx.buf.bytes n.val

/-- The frame being sent, `tx.frame[0..tx.len-1]` (R82), which is what the observation of R665 enters as sent. DESIGN
CHOICE: where `tx.len` has no value, in states no run of the block reaches, no rule says which frame is observed; the
Done callback (R314) reads no length and goes on, and the frame is a free value (notes/assumptions/16.md). -/
def State.sendingBytes (s : State) : List Byte :=
  match s.tx.len with
  | none => Config.sentWithoutLength s.framesSent.length
  | some n => s.tx.frame.bytes n.val

end Sys2Proof.Machine
end

