-- ==== Sys2Proof/Machine/Flags.lean ====
section
/-! DEFINITION. Every condition and bit value the rules compute: windows and bit classification (R9, R249), the ACK
decision (R252), the transmitted bits (R305), the dispatcher's guards (R402, R403), the discipline (R160), and what
unblocks PC (R510). -/

namespace Sys2Proof.Machine

/-- `inW(d, [lo, hi])` (R25). -/
def inW (d : Time) (w : Window) : Bool := decide (w.lo ≤ d.toNat) && decide (d.toNat ≤ w.hi)

/-- `classify(d)`, the bit value of a low time, `none` for ⊥ (R249). -/
def classify (d : Time) : Option Bool :=
  if inW d Config.rxBit1Low then some true
  else if inW d Config.rxBit0Low then some false
  else none

/-- A received byte with the next bit shifted in, `((b << 1) | bit)[7:0]` (R250). -/
def shiftIn (b : Byte) (bit : Bool) : Byte := (b <<< 1) ||| (if bit then 1#8 else 0#8)

/-- `ack_wanted` for a header byte and a target address (R252). -/
def ackWanted (header : Byte) (target : LogicalAddr) : Bool :=
  destinationOf header == target || destinationOf header == Config.broadcast

/-- `txbit`, the data bit being sent (R305). -/
def Tx.txbit (t : Tx) : Bool := (t.frame.read t.byte).getLsbD t.bit.val

/-- The byte being sent is the frame's last, `tx.byte = tx.len - 1` (R305, R312). -/
def Tx.lastByte (t : Tx) (n : Fin 17) : Bool := t.byte.toNat + 1 == n.val

/-- `low(b)`, the low time of a transmitted bit (R305). -/
def lowTime (b : Bool) : Nat := if b then Config.txBit1Low else Config.txBit0Low

/-- Unicast match: the destination is the device's logical address, 0xF included (R402). -/
def unicast (h : Header) (la : LogicalAddr) : Bool := h.dst == la

/-- Root cue: header byte 0x0F (R403). -/
def rootCue (h : Header) : Bool := h.init == Config.root && h.dst == Config.broadcast

/-- A routing operand names this device: PA is known and the operand is PA (R423, R429). -/
def namesPa (operand : Option PhysicalAddr) (pa : PhysicalAddr) : Bool :=
  pa != Config.paUnknown && operand == some pa

/-- A receive is in flight (R160). -/
def State.receiveInFlight (s : State) : Bool :=
  match s.rx.phase with
  | .idle | .done | .abort => false
  | _ => true

/-- A send is in flight (R160). -/
def State.sendInFlight (s : State) : Bool := s.tx.phase != .idle

/-- The half-duplex discipline is broken: a receive and a send in flight at once, or a send with edges armed (R160, R553). -/
def State.halfDuplexBroken (s : State) : Bool := s.sendInFlight && (s.receiveInFlight || s.edgeArmed)

/-- PC is not blocked: it is between two blocking points (R510, R573). -/
def State.pcRuns (s : State) : Bool :=
  match s.pc.op with
  | .run | .poll | .announce => true
  | _ => false

/-- The condition PC is blocked on holds (R510). -/
def State.pcReady (s : State) : Bool :=
  match s.pc.op with
  | .run | .poll | .announce => true
  | .resolving =>
    s.edidRsp.isSome ||
      (match s.edidReq with
       | none => false
       | some q => decide (Config.edidTimeout ≤ (s.elapsed q.since).toNat))
  | .freeWait _ _ => s.pc.freeCount == 7
  | .sending _ => match s.notifySlot with | some (.txDone _) => true | _ => false
  | .receiving => match s.notifySlot with | some (.rxDone _) => true | _ => false
  | .keying _ since => s.keyRoom || decide (Config.keyqWait ≤ (s.elapsed since).toNat)

end Sys2Proof.Machine
end

