-- ==== Sys2Proof/Machine/Assembler.lean ====
section
/-! DEFINITION. The frame builders (42_frame_assembler.md section 2). Every frame but a Poll has the block's logical
address as initiator (R362); the caller passes it, having read `pc.LA`. -/

namespace Sys2Proof.Machine

/-- A frame from its header fields, its opcode and its operands (R360, R362). -/
def buildFrame (la dst : LogicalAddr) (op : Byte) (ops : List Byte) : List Byte := headerByte ⟨la, dst⟩ :: op :: ops

/-- `POLL(c)` (R363). -/
def framePoll (c : LogicalAddr) : List Byte := [headerByte ⟨c, c⟩]

/-- `REPORT_POWER_STATUS(d)` (R364). -/
def frameReportPowerStatus (la d : LogicalAddr) : List Byte := buildFrame la d 0x90 [Config.powerStatus]

/-- `REPORT_AUDIO_STATUS(d)` (R365). -/
def frameReportAudioStatus (la d : LogicalAddr) : List Byte := buildFrame la d 0x7A [Config.audioStatus]

/-- `REPORT_SAM_STATUS(d)` (R366). -/
def frameReportSamStatus (la d : LogicalAddr) : List Byte := buildFrame la d 0x7E [Config.samStatus]

/-- `SET_OSD_NAME(d)` (R367). -/
def frameSetOsdName (la d : LogicalAddr) : List Byte := buildFrame la d 0x47 Config.osdName

/-- `REPORT_PHYSICAL_ADDRESS()`, broadcast (R368). -/
def frameReportPhysicalAddress (la : LogicalAddr) (pa : PhysicalAddr) : List Byte :=
  buildFrame la Config.broadcast 0x84 (paBytes pa ++ [Config.deviceType])

/-- `DEVICE_VENDOR_ID()`, broadcast (R369). -/
def frameDeviceVendorId (la : LogicalAddr) : List Byte :=
  buildFrame la Config.broadcast 0x87 (vendorBytes Config.vendorId)

/-- `CEC_VERSION(d)` (R370). -/
def frameCecVersion (la d : LogicalAddr) : List Byte := buildFrame la d 0x9E [Config.cecVersion]

/-- `IMAGE_VIEW_ON()`, to the root device (R371). -/
def frameImageViewOn (la : LogicalAddr) : List Byte := buildFrame la Config.root 0x04 []

/-- `ACTIVE_SOURCE()`, broadcast (R372). -/
def frameActiveSource (la : LogicalAddr) (pa : PhysicalAddr) : List Byte :=
  buildFrame la Config.broadcast 0x82 (paBytes pa)

end Sys2Proof.Machine
end

