-- ==== Sys2Proof/Machine/Receiver.lean ====
section
/-! DEFINITION. The CEC bit receiver (40_bit_receiver.md): one rule per (phase, edge polarity) pair, the handler's
entry and exit around it, and the ACK release of the RXA agent. In a rule `t` is the clock value of the step and
`d = t - rx.tref` modulo 2^64 (R241). -/

namespace Sys2Proof.Machine

/-- A rule that reads the measured interval: `rx.tref` without a value is the fault UNWRITTEN_READ (R68, R242). -/
def withInterval (s : State) (k : Time → Result) : Result :=
  match s.rx.tref with
  | none => .fault .unwrittenRead
  | some t => k (s.elapsed t)

/-- `begin_byte(i)` (R248). -/
def Rx.beginByte (r : Rx) (i : BitVec 4) : Rx :=
  { r with byte := i, bit := 7, buf := r.buf.write i 0#8, eom := false }

/-- AwaitStart, falling edge (R245): any falling edge is taken as a start bit. -/
def rxAwaitStartFalling (s : State) : Result :=
  .next { s with rx := { s.rx with tref := some s.clock, phase := .startLow } }

/-- StartLow, rising edge (R246). -/
def rxStartLowRising (s : State) : Result :=
  withInterval s fun d =>
    if inW d Config.rxStartLow then .next { s with rx := { s.rx with phase := .startHigh } }
    else raiseAbort .rxStartLowTiming (some d) s

/-- StartHigh, falling edge (R247). -/
def rxStartHighFalling (s : State) : Result :=
  withInterval s fun d =>
    if inW d Config.rxStartPeriod then
      .next { s with rx := { s.rx.beginByte 0 with tref := some s.clock, phase := .dataLow } }
    else raiseAbort .rxStartPeriodTiming (some d) s

/-- DataLow, rising edge (R250). -/
def rxDataLowRising (s : State) : Result :=
  withInterval s fun d =>
    match classify d with
    | none => raiseAbort .rxDataLowTiming (some d) s
    | some b =>
      .next { s with
        rx :=
          { s.rx with
            buf := s.rx.buf.write s.rx.byte (shiftIn (s.rx.buf.read s.rx.byte) b)
            phase := .dataHigh } }

/-- DataHigh, falling edge (R251). -/
def rxDataHighFalling (s : State) : Result :=
  withInterval s fun d =>
    if inW d Config.rxBitPeriod then
      if s.rx.bit = 0 then .next { s with rx := { s.rx with tref := some s.clock, phase := .eomLow } }
      else .next { s with rx := { s.rx with tref := some s.clock, bit := s.rx.bit - 1, phase := .dataLow } }
    else raiseAbort .rxDataPeriodTiming (some d) s

/-- EomLow, rising edge (R256). -/
def rxEomLowRising (s : State) : Result :=
  withInterval s fun d =>
    match classify d with
    | none => raiseAbort .rxEomLowTiming (some d) s
    | some b => .next { s with rx := { s.rx with eom := b, phase := .eomHigh } }

/-- `ack_start()` (R258): drive low, and release 1500 µs after the ACK slot's falling edge, which is this step's. -/
def ackStart (s : State) : State :=
  let driven := s.driveRx true
  { driven with
    rx := { driven.rx with ackActive := true }
    rxaTimer := some (driven.alarm driven.clock Config.rxAckDrive) }

/-- EomHigh, falling edge (R257). -/
def rxEomHighFalling (s : State) : Result :=
  withInterval s fun d =>
    if inW d Config.rxBitPeriod then
      match s.rx.target with
      | none => .fault .unwrittenRead
      | some target =>
        let taken := { s with rx := { s.rx with tref := some s.clock, phase := .ackLow } }
        .next (if ackWanted (s.rx.buf.read 0) target then ackStart taken else taken)
    else raiseAbort .rxEomPeriodTiming (some d) s

/-- `rx.byte + 1` as a frame length (R260). -/
def lengthThrough (i : BitVec 4) : Fin 17 := ⟨i.toNat + 1, by omega⟩

/-- AckLow, rising edge (R260): the ACK bit's value is not kept (R261). -/
def rxAckLowRising (s : State) : Result :=
  withInterval s fun d =>
    if inW d Config.rxBit1Low || inW d Config.rxBit0Low then
      if s.rx.eom then
        let n := lengthThrough s.rx.byte
        notify (.rxDone n) { s with
          rx := { s.rx with len := some n, phase := .done }
          framesReceived := s.framesReceived ++ [s.deliveredBytes n] }
      else .next { s with rx := { s.rx with phase := .ackHigh } }
    else raiseAbort .rxAckLowTiming (some d) s

/-- AckHigh, falling edge (R264): the period is checked first, then the 17th byte block (R554). -/
def rxAckHighFalling (s : State) : Result :=
  withInterval s fun d =>
    if inW d Config.rxBitPeriod then
      if s.rx.byte = 15 then raiseAbort .rxFrameOverflow (some d) s
      else .next { s with rx := { s.rx.beginByte (s.rx.byte + 1) with tref := some s.clock, phase := .dataLow } }
    else raiseAbort .rxAckPeriodTiming (some d) s

/-- A wrong-polarity edge (R243): no interval is read. -/
def rxWrongPolarity (s : State) : Result := raiseAbort .rxUnexpectedEdge none s

/-- The one transition rule that matches the phase and the edge's polarity (R240). Idle, Done and Abort expect no
edge and no rule is given for one: nothing happens (notes/assumptions/7.md). -/
def rxTransition (p : Polarity) (s : State) : Result :=
  match s.rx.phase, p with
  | .idle, _ => .next s
  | .awaitStart, .rising => .next s
  | .awaitStart, .falling => rxAwaitStartFalling s
  | .startLow, .rising => rxStartLowRising s
  | .startLow, .falling => rxWrongPolarity s
  | .startHigh, .falling => rxStartHighFalling s
  | .startHigh, .rising => rxWrongPolarity s
  | .dataLow, .rising => rxDataLowRising s
  | .dataLow, .falling => rxWrongPolarity s
  | .dataHigh, .falling => rxDataHighFalling s
  | .dataHigh, .rising => rxWrongPolarity s
  | .eomLow, .rising => rxEomLowRising s
  | .eomLow, .falling => rxWrongPolarity s
  | .eomHigh, .falling => rxEomHighFalling s
  | .eomHigh, .rising => rxWrongPolarity s
  | .ackLow, .rising => rxAckLowRising s
  | .ackLow, .falling => rxWrongPolarity s
  | .ackHigh, .falling => rxAckHighFalling s
  | .ackHigh, .rising => rxWrongPolarity s
  | .done, _ => .next s
  | .abort, _ => .next s

/-- The handler's entry: acknowledge the edge and disarm edge notifications (R242). -/
def rxEntry (s : State) : State := { s with edgePending := none, edgeArmed := false }

/-- The handler's exit: arm edges again unless the receive has ended (R242). -/
def rxExit (s : State) : State :=
  match s.rx.phase with
  | .done | .abort => s
  | _ => { s with edgeArmed := true }

/-- An RX step for one edge (R240, R242). -/
def rxHandle (p : Polarity) (s : State) : Result :=
  andThen (rxTransition p (rxEntry s)) fun s' => .next (rxExit s')

/-- The RX agent takes the pending edge; with none pending it is not enabled and nothing happens. -/
def rxStep (s : State) : Result :=
  match s.edgePending with
  | none => .next s
  | some e => rxHandle e.polarity s

/-- The RXA step, the ACK release, in any phase (R262); firing disarms the timer. -/
def rxaRelease (s : State) : State :=
  let released := { s with rxaTimer := none }.driveRx false
  { released with rx := { released.rx with ackActive := false } }

/-- The RXA agent steps when its timer fires. -/
def rxaStep (s : State) : Result := if s.fires s.rxaTimer then .next (rxaRelease s) else .next s

end Sys2Proof.Machine
end

