-- ==== Sys2Proof/Machine/Transmitter.lean ====
section
/-! DEFINITION. The CEC bit transmitter (41_bit_transmitter.md): one definition per callback, the callback's return
(R313), and the bus-free sample (R301). The transmitter has no abort and no error (R315). -/

namespace Sys2Proof.Machine

/-- `return δ` of a callback that was due at `a.due`: the next one is due δ after that, so slots do not drift (R313). -/
def txReturn (a : Alarm) (delay : Nat) (s : State) : Result :=
  .next { s with txTimer := some (s.alarm a.due delay) }

/-- A rule that reads `tx.len`: without a value it is the fault UNWRITTEN_READ (R82, R623). -/
def withTxLen (s : State) (k : Fin 17 → Result) : Result :=
  match s.tx.len with
  | none => .fault .unwrittenRead
  | some n => k n

/-- StartLow callback (R303). -/
def txStartLowCallback (a : Alarm) (s : State) : Result :=
  let low := s.driveTx true
  txReturn a Config.txStartLow { low with tx := { low.tx with t0 := some low.clock, phase := .startHigh } }

/-- StartHigh callback (R304). -/
def txStartHighCallback (a : Alarm) (s : State) : Result :=
  let high := s.driveTx false
  txReturn a (Config.txStartPeriod - Config.txStartLow) { high with tx := { high.tx with phase := .dataLow } }

/-- DataLow callback (R306). -/
def txDataLowCallback (a : Alarm) (s : State) : Result :=
  let low := s.driveTx true
  txReturn a (lowTime s.tx.txbit) { low with tx := { low.tx with phase := .dataHigh } }

/-- DataHigh callback (R307): the bit is read before `tx.bit` changes. -/
def txDataHighCallback (a : Alarm) (s : State) : Result :=
  let high := s.driveTx false
  txReturn a (Config.txBitPeriod - lowTime s.tx.txbit)
    (if s.tx.bit = 0 then { high with tx := { high.tx with phase := .eomLow } }
     else { high with tx := { high.tx with bit := s.tx.bit - 1, phase := .dataLow } })

/-- EomLow callback (R308). -/
def txEomLowCallback (a : Alarm) (s : State) : Result :=
  withTxLen s fun n =>
    let low := s.driveTx true
    txReturn a (lowTime (s.tx.lastByte n)) { low with tx := { low.tx with phase := .eomHigh } }

/-- EomHigh callback (R309). -/
def txEomHighCallback (a : Alarm) (s : State) : Result :=
  withTxLen s fun n =>
    let high := s.driveTx false
    txReturn a (Config.txBitPeriod - lowTime (s.tx.lastByte n)) { high with tx := { high.tx with phase := .ackLow } }

/-- AckLow callback (R310). -/
def txAckLowCallback (a : Alarm) (s : State) : Result :=
  let low := s.driveTx true
  txReturn a Config.txAckLow { low with tx := { low.tx with phase := .ackHigh } }

/-- AckHigh callback (R311). -/
def txAckHighCallback (a : Alarm) (s : State) : Result :=
  let high := s.driveTx false
  txReturn a (Config.txAckSample - Config.txAckLow) { high with tx := { high.tx with phase := .ackWait } }

/-- AckWait callback, the ACK sampler (R312). -/
def txAckWaitCallback (a : Alarm) (s : State) : Result :=
  withTxLen s fun n =>
    let acked := s.tx.ack && !s.line
    txReturn a (Config.txBitPeriod - Config.txAckSample)
      (if s.tx.lastByte n then { s with tx := { s.tx with ack := acked, phase := .done } }
       else { s with tx := { s.tx with ack := acked, byte := s.tx.byte + 1, bit := 7, phase := .dataLow } })

/-- Done callback (R314): no further callback. -/
def txDoneCallback (s : State) : Result :=
  notify (.txDone s.tx.ack) { s with
    tx := { s.tx with phase := .idle }
    framesSent := s.framesSent ++ [⟨s.sendingBytes, s.tx.ack⟩] }

/-- The callback of the phase `tx.phase` (R80), for the timer that was due as `a`. Idle has none (notes/assumptions/7.md). -/
def txCallback (a : Alarm) (s : State) : Result :=
  match s.tx.phase with
  | .idle => .next s
  | .startLow => txStartLowCallback a s
  | .startHigh => txStartHighCallback a s
  | .dataLow => txDataLowCallback a s
  | .dataHigh => txDataHighCallback a s
  | .eomLow => txEomLowCallback a s
  | .eomHigh => txEomHighCallback a s
  | .ackLow => txAckLowCallback a s
  | .ackHigh => txAckHighCallback a s
  | .ackWait => txAckWaitCallback a s
  | .done => txDoneCallback s

/-- The TX agent steps when its timer fires; firing disarms it (R103). -/
def txStep (s : State) : Result :=
  match s.txTimer with
  | none => .next s
  | some a => if s.fires s.txTimer then txCallback a { s with txTimer := none } else .next s

/-- The count of consecutive high samples after one more sample (R301); it stays in 0 to 7 (R92). -/
def nextFreeCount (c : Fin 8) (high : Bool) : Fin 8 :=
  if high then (if h : c.val + 1 < 8 then ⟨c.val + 1, h⟩ else c) else 0

/-- The bus-free sample for the timer that was due as `a` (R301). -/
def freeSample (a : Alarm) (s : State) : State :=
  let c := nextFreeCount s.pc.freeCount s.line
  { s with
    pc := { s.pc with freeCount := c }
    freeTimer := if c.val < Config.freeBitCount then some (s.alarm a.due Config.freeBitTime) else none }

/-- The bus-free sample is taken when its timer fires (R301). -/
def freeStep (s : State) : Result :=
  match s.freeTimer with
  | none => .next s
  | some a => if s.fires s.freeTimer then .next (freeSample a s) else .next s

end Sys2Proof.Machine
end

