-- ==== Sys2Proof/Machine/Edid.lean ====
section
/-! DEFINITION. The EDID physical-address parser (44_edid_parser.md). The image is the 256 bytes of one answer and is
not kept (R141); `e[k]` is image byte k and `x(k) = e[128 + k]`. -/

namespace Sys2Proof.Machine

/-- What a parse gives: an address, or the cause that is logged while the address is PA_UNKNOWN (R472). -/
inductive Parsed where
  | address (pa : PhysicalAddr)
  | failed (c : Cause)
  deriving DecidableEq, Repr, Inhabited

/-- The sum of a list of bytes modulo 256 (R473, R474). -/
def byteSum (l : List Byte) : Byte := l.foldl (· + ·) 0

/-- `e[k]`. -/
def imageByte (e : List Byte) (k : Nat) : Byte := e.getD k 0

/-- `x(k)`, extension-block offset k (R158). -/
def extByte (e : List Byte) (k : Nat) : Byte := imageByte e (Config.edidBlock + k)

/-- `base_checksum_ok(e)` (R473). -/
def baseChecksumOk (e : List Byte) : Bool := byteSum (e.take Config.edidBlock) == 0

/-- `ext_checksum_ok(e)` (R474). -/
def extChecksumOk (e : List Byte) : Bool := byteSum ((e.drop Config.edidBlock).take Config.edidBlock) == 0

/-- `header_ok(e)` (R475). -/
def headerOk (e : List Byte) : Bool := e.take 8 == Config.edidHeader

/-- `cta_ok(e)` (R477). -/
def ctaOk (e : List Byte) : Bool := extByte e 0 == Config.ctaTag.1 && extByte e 1 == Config.ctaTag.2

/-- The end of the data-block collection, exclusive: `min(x(2), 127)` (R480). -/
def dtdStart (e : List Byte) : Nat := min (extByte e Config.dtdPtr).toNat 127

/-- The block at offset `i` is the HDMI Vendor-Specific Data Block: its tag, its length and its OUI (R480, R481, R487). -/
def isHdmiVsdb (e : List Byte) (i : Nat) : Bool :=
  blockTag (extByte e i) == Config.vsdbTag && decide (5 ≤ blockLength (extByte e i)) &&
    [extByte e (i + 1), extByte e (i + 2), extByte e (i + 3)] == Config.hdmiOuiStored

/-- `vsdb_pa(i)`: low byte first, high byte second (R149, R485). -/
def vsdbPa (e : List Byte) (i : Nat) : PhysicalAddr := assemblePa (extByte e (i + 5)) (extByte e (i + 4))

/-- The scan's loop from offset `i`, with more turns left than it can take (R480): `i` grows by at least 1 a turn and
stays below 127. -/
def scanFrom (e : List Byte) : Nat → Nat → Parsed
  | 0, _ => .failed .edidNoVsdb
  | turns + 1, i =>
    if i < dtdStart e then
      if dtdStart e ≤ i + blockLength (extByte e i) then .failed .edidNoVsdb
      else if isHdmiVsdb e i then .address (vsdbPa e i)
      else scanFrom e turns (i + 1 + blockLength (extByte e i))
    else .failed .edidNoVsdb

/-- `scan(e)` (R480). -/
def scan (e : List Byte) : Parsed := scanFrom e Config.edidBlock Config.dbcStart

/-- `parse(e)`: the checks in order, then the scan (R472). -/
def parse (e : List Byte) : Parsed :=
  if !baseChecksumOk e then .failed .edidBaseChecksum
  else if !extChecksumOk e then .failed .edidExtChecksum
  else if !headerOk e then .failed .edidHeaderErr
  else if !ctaOk e then .failed .edidNoCta
  else scan e

/-- What `resolve()` makes of the transaction's answer, `none` for Timeout (R470). An answer of another length than
256 bytes is a failed transaction (R471). -/
def resolveAnswer : Option EdidAnswer → Parsed
  | none => .failed .edidTimeoutErr
  | some .busError => .failed .edidBusErr
  | some (.ok e) => if e.length = Config.edidSize then parse e else .failed .edidBusErr

/-- `edid_read()` starts: one request for 256 bytes at EDID_I2C_ADDR (R471). -/
def resolveStart (s : State) : State :=
  { s with
    edidReq := some ⟨Config.edidI2cAddr, s.clock⟩
    edidRsp := none
    pc := { s.pc with op := .resolving } }

/-- The whole result of a resolve written to `pc.PA` in one step, after its log event (R470, R490). -/
def writePa (r : Parsed) (s : State) : State :=
  match r with
  | .address pa => { s with pc := { s.pc with pa := pa } }
  | .failed c =>
    let logged := s.log .edid (.edidError c)
    { logged with pc := { logged.pc with pa := Config.paUnknown } }

/-- `resolve()` ends: the answer is taken (R155, R141) and `pc.PA` written. -/
def resolveEnd (s : State) : State :=
  writePa (resolveAnswer s.edidRsp) { s with edidReq := none, edidRsp := none }

/-- The EDID agent answers the open transaction, once (R471); with none open it has nothing to answer. -/
def State.edidAnswers (s : State) (r : EdidAnswer) : State :=
  if s.edidReq.isSome && s.edidRsp.isNone then { s with edidRsp := some r } else s

end Sys2Proof.Machine
end

