-- ==== Sys2Proof/Machine/Requests.lean ====
section
/-! DEFINITION. The unicast requests the block answers (43_opcode_dispatcher.md R415, R418, R421, R426, R432, R434,
R439). Each is guarded by `unicast(f)`; a false guard gives no reaction and no log event (R406), and operand bytes
are not read. -/

namespace Sys2Proof.Machine

/-- The shape of every unicast request: one reply, built with the block's address and the requester's, when the
frame is addressed to the block (R402, R406, R407). -/
def replyIfUnicast (build : LogicalAddr → LogicalAddr → List Byte) (h : Header) (s : State) : Result :=
  withLa s fun la => react (if unicast h la then [.send (build la h.init)] else []) s

/-- 0x46 Give OSD Name (R415). -/
def execGiveOsdName (h : Header) (_ops : List Byte) (s : State) : Result := replyIfUnicast frameSetOsdName h s

/-- 0x71 Give Audio Status (R418). -/
def execGiveAudioStatus (h : Header) (_ops : List Byte) (s : State) : Result :=
  replyIfUnicast frameReportAudioStatus h s

/-- 0x7D Give System Audio Mode Status (R421). -/
def execGiveSystemAudioModeStatus (h : Header) (_ops : List Byte) (s : State) : Result :=
  replyIfUnicast frameReportSamStatus h s

/-- 0x83 Give Physical Address (R426); the reply is broadcast and carries `pc.PA` of the dispatch (R446). -/
def execGivePhysicalAddress (h : Header) (_ops : List Byte) (s : State) : Result :=
  replyIfUnicast (fun la _ => frameReportPhysicalAddress la s.pc.pa) h s

/-- 0x8C Give Device Vendor ID (R432); the reply is broadcast. -/
def execGiveDeviceVendorId (h : Header) (_ops : List Byte) (s : State) : Result :=
  replyIfUnicast (fun la _ => frameDeviceVendorId la) h s

/-- 0x8F Give Device Power Status (R434). -/
def execGiveDevicePowerStatus (h : Header) (_ops : List Byte) (s : State) : Result :=
  replyIfUnicast frameReportPowerStatus h s

/-- 0x9F Get CEC Version (R439). -/
def execGetCecVersion (h : Header) (_ops : List Byte) (s : State) : Result := replyIfUnicast frameCecVersion h s

end Sys2Proof.Machine
end

