-- ==== Sys2Proof/Machine/UserControl.lean ====
section
/-! DEFINITION. The remote-control messages (43_opcode_dispatcher.md R413, R414). Neither has an address condition. -/

namespace Sys2Proof.Machine

/-- The reaction to a UI command, frame byte 2, if the frame has one (R413). -/
def pressReaction (ops : List Byte) : Action :=
  match operandUi ops with
  | none => .log (.malformed 0x44 (messageLength ops))
  | some u =>
    match Config.keymap u with
    | some k => .key k
    | none => .log (.keyUnmapped u)

/-- 0x44 User Control Pressed (R413). -/
def execUserControlPressed (_h : Header) (ops : List Byte) (s : State) : Result := react [pressReaction ops] s

/-- 0x45 User Control Released (R414). -/
def execUserControlReleased (_h : Header) (_ops : List Byte) (s : State) : Result := react [.key Config.noKey] s

end Sys2Proof.Machine
end

