-- ==== Sys2Proof/Machine/Routing.lean ====
section
/-! DEFINITION. The routing messages (43_opcode_dispatcher.md R423, R429). A frame too short for the operand, another
address, or an unknown PA gives no reaction (R406); any destination. -/

namespace Sys2Proof.Machine

/-- The routing reply: Image View On, then Active Source, when the operand names this device; `pc.LA` is read by the
builders only (R362, R423, R429). -/
def routingReply (operand : Option PhysicalAddr) (s : State) : Result :=
  if namesPa operand s.pc.pa then
    withLa s fun la => react [.send (frameImageViewOn la), .send (frameActiveSource la s.pc.pa)] s
  else react [] s

/-- 0x80 Routing Change: the new address is frame bytes 4 and 5, operands 2 and 3 (R423). -/
def execRoutingChange (_h : Header) (ops : List Byte) (s : State) : Result := routingReply (operandPa ops 2) s

/-- 0x86 Set Stream Path: the address is frame bytes 2 and 3, operands 0 and 1 (R429). -/
def execSetStreamPath (_h : Header) (ops : List Byte) (s : State) : Result := routingReply (operandPa ops 0) s

end Sys2Proof.Machine
end

