-- ==== Sys2Proof/Machine/RootCue.lean ====
section
/-! DEFINITION. The messages that make the block announce itself again when the root device broadcasts them
(43_opcode_dispatcher.md R427, R430, R431). Operands are not read. -/

namespace Sys2Proof.Machine

/-- `Reannounce` on the root cue, else no reaction (R403, R406). -/
def reannounceOnCue (h : Header) (s : State) : Result := react (if rootCue h then [.reannounce] else []) s

/-- 0x84 Report Physical Address, received (R427). -/
def execReportPhysicalAddress (h : Header) (_ops : List Byte) (s : State) : Result := reannounceOnCue h s

/-- 0x87 Device Vendor ID, received (R431). -/
def execDeviceVendorId (h : Header) (_ops : List Byte) (s : State) : Result := reannounceOnCue h s

end Sys2Proof.Machine
end

