-- ==== Sys2Proof/Machine/Unhandled.lean ====
section
/-! DEFINITION. The Poll (R405) and every opcode without a handler, named or not (43_opcode_dispatcher.md section 4,
R404): it is logged as unrecognized whatever its length, destination and initiator, with no reply, no key and no
change of state. -/

namespace Sys2Proof.Machine

/-- The default reaction (R404): one log event with the opcode and the frame length. -/
def logUnrecognized (op : Byte) (ops : List Byte) (s : State) : Result :=
  react [.log (.unrecognized op (messageLength ops))] s

/-- A Poll: no reaction; the receiver acknowledged it, or not, during the frame (R405). -/
def execPoll (_h : Header) (s : State) : Result := react [] s

/-- 0x04 Image View On, received (R410). -/
def execImageViewOn (_h : Header) (ops : List Byte) (s : State) : Result := logUnrecognized 0x04 ops s

/-- 0x0D Text View On, received (R411). -/
def execTextViewOn (_h : Header) (ops : List Byte) (s : State) : Result := logUnrecognized 0x0D ops s

/-- 0x36 Standby, received (R412). -/
def execStandby (_h : Header) (ops : List Byte) (s : State) : Result := logUnrecognized 0x36 ops s

/-- 0x47 Set OSD Name, received (R416). -/
def execSetOsdName (_h : Header) (ops : List Byte) (s : State) : Result := logUnrecognized 0x47 ops s

/-- 0x70 System Audio Mode Request, received (R417). -/
def execSystemAudioModeRequest (_h : Header) (ops : List Byte) (s : State) : Result := logUnrecognized 0x70 ops s

/-- 0x72 Set System Audio Mode, received (R419). -/
def execSetSystemAudioMode (_h : Header) (ops : List Byte) (s : State) : Result := logUnrecognized 0x72 ops s

/-- 0x7A Report Audio Status, received (R420). -/
def execReportAudioStatus (_h : Header) (ops : List Byte) (s : State) : Result := logUnrecognized 0x7A ops s

/-- 0x7E Report System Audio Mode Status, received (R422). -/
def execReportSystemAudioModeStatus (_h : Header) (ops : List Byte) (s : State) : Result := logUnrecognized 0x7E ops s

/-- 0x81 the opcode the source names Report Menu Language, received (R424). -/
def execReportMenuLanguageAsNamed (_h : Header) (ops : List Byte) (s : State) : Result := logUnrecognized 0x81 ops s

/-- 0x82 Active Source, received (R425). -/
def execActiveSource (_h : Header) (ops : List Byte) (s : State) : Result := logUnrecognized 0x82 ops s

/-- 0x85 Request Active Source, received (R428). -/
def execRequestActiveSource (_h : Header) (ops : List Byte) (s : State) : Result := logUnrecognized 0x85 ops s

/-- 0x8E Menu Status, received (R433). -/
def execMenuStatus (_h : Header) (ops : List Byte) (s : State) : Result := logUnrecognized 0x8E ops s

/-- 0x90 Report Power Status, received (R435). -/
def execReportPowerStatus (_h : Header) (ops : List Byte) (s : State) : Result := logUnrecognized 0x90 ops s

/-- 0x91 Get Menu Language, received (R436). -/
def execGetMenuLanguage (_h : Header) (ops : List Byte) (s : State) : Result := logUnrecognized 0x91 ops s

/-- 0x9D Inactive Source, received (R437). -/
def execInactiveSource (_h : Header) (ops : List Byte) (s : State) : Result := logUnrecognized 0x9D ops s

/-- 0x9E CEC Version, received (R438). -/
def execCecVersion (_h : Header) (ops : List Byte) (s : State) : Result := logUnrecognized 0x9E ops s

/-- 0xA0 Vendor Command With ID, received (R440). -/
def execVendorCommandWithId (_h : Header) (ops : List Byte) (s : State) : Result := logUnrecognized 0xA0 ops s

/-- 0xFF Abort, received (R441). -/
def execAbort (_h : Header) (ops : List Byte) (s : State) : Result := logUnrecognized 0xFF ops s

/-- An opcode byte that no named row matches (R404, R210). -/
def execUnnamedOpcode (op : Byte) (_h : Header) (ops : List Byte) (s : State) : Result := logUnrecognized op ops s

end Sys2Proof.Machine
end

