-- ==== Sys2Proof/Machine/Dispatch.lean ====
section
/-! DEFINITION. The dispatcher's table as one arm per instruction (R401, R450): each arm is one call of its meaning. -/

namespace Sys2Proof.Machine

def exec (i : Instr) (s : State) : Host.Outcome State Fault Refusal :=
  match i with
  | .poll h => Sys2Proof.Machine.execPoll h s
  | .imageViewOn h ops => Sys2Proof.Machine.execImageViewOn h ops s
  | .textViewOn h ops => Sys2Proof.Machine.execTextViewOn h ops s
  | .standby h ops => Sys2Proof.Machine.execStandby h ops s
  | .userControlPressed h ops => Sys2Proof.Machine.execUserControlPressed h ops s
  | .userControlReleased h ops => Sys2Proof.Machine.execUserControlReleased h ops s
  | .giveOsdName h ops => Sys2Proof.Machine.execGiveOsdName h ops s
  | .setOsdName h ops => Sys2Proof.Machine.execSetOsdName h ops s
  | .systemAudioModeRequest h ops => Sys2Proof.Machine.execSystemAudioModeRequest h ops s
  | .giveAudioStatus h ops => Sys2Proof.Machine.execGiveAudioStatus h ops s
  | .setSystemAudioMode h ops => Sys2Proof.Machine.execSetSystemAudioMode h ops s
  | .reportAudioStatus h ops => Sys2Proof.Machine.execReportAudioStatus h ops s
  | .giveSystemAudioModeStatus h ops => Sys2Proof.Machine.execGiveSystemAudioModeStatus h ops s
  | .reportSystemAudioModeStatus h ops => Sys2Proof.Machine.execReportSystemAudioModeStatus h ops s
  | .routingChange h ops => Sys2Proof.Machine.execRoutingChange h ops s
  | .reportMenuLanguageAsNamed h ops => Sys2Proof.Machine.execReportMenuLanguageAsNamed h ops s
  | .activeSource h ops => Sys2Proof.Machine.execActiveSource h ops s
  | .givePhysicalAddress h ops => Sys2Proof.Machine.execGivePhysicalAddress h ops s
  | .reportPhysicalAddress h ops => Sys2Proof.Machine.execReportPhysicalAddress h ops s
  | .requestActiveSource h ops => Sys2Proof.Machine.execRequestActiveSource h ops s
  | .setStreamPath h ops => Sys2Proof.Machine.execSetStreamPath h ops s
  | .deviceVendorId h ops => Sys2Proof.Machine.execDeviceVendorId h ops s
  | .giveDeviceVendorId h ops => Sys2Proof.Machine.execGiveDeviceVendorId h ops s
  | .menuStatus h ops => Sys2Proof.Machine.execMenuStatus h ops s
  | .giveDevicePowerStatus h ops => Sys2Proof.Machine.execGiveDevicePowerStatus h ops s
  | .reportPowerStatus h ops => Sys2Proof.Machine.execReportPowerStatus h ops s
  | .getMenuLanguage h ops => Sys2Proof.Machine.execGetMenuLanguage h ops s
  | .inactiveSource h ops => Sys2Proof.Machine.execInactiveSource h ops s
  | .cecVersion h ops => Sys2Proof.Machine.execCecVersion h ops s
  | .getCecVersion h ops => Sys2Proof.Machine.execGetCecVersion h ops s
  | .vendorCommandWithId h ops => Sys2Proof.Machine.execVendorCommandWithId h ops s
  | .abort h ops => Sys2Proof.Machine.execAbort h ops s
  | .unnamedOpcode op h ops => Sys2Proof.Machine.execUnnamedOpcode op h ops s

end Sys2Proof.Machine
end

