-- ==== Sys2Proof/Machine/Context.lean ====
section
/-! DEFINITION. The protocol context (45_protocol_context.md): its program by label (R511), the execution of actions
(R513), the address allocator (R515), and what PC does when the operation it is blocked in ends (R510). PC's step
between two blocking points is atomic (R573): while PC is not blocked, no other agent moves (Machine/Step.lean). -/

namespace Sys2Proof.Machine

/-- `goto L` (R511). -/
def State.goto (s : State) (l : Point) : State := { s with pc := { s.pc with point := l, op := .run } }

/-- PC at another place of its label's code. -/
def State.atOp (s : State) (op : PcOp) : State := { s with pc := { s.pc with op := op } }

/-! ### The parts of the startup and of a `Reannounce` (R512, R430): the same three operations. At startup each has its
own label; inside a `Reannounce` the label stays ACT (R513). -/

/-- `allocate()` begins with the first candidate (R515). -/
def allocStart (s : State) : State := { s with pc := { s.pc with allocI := 0, op := .poll } }

/-- The loop body of `allocate` (R515): one poll of the candidate. -/
def allocPoll (s : State) : Result := sendStart .poll (framePoll Config.candidates[s.pc.allocI]) s

/-- After `allocate()`: to ANNOUNCE at startup, to the announcement inside a `Reannounce`. -/
def afterAlloc (s : State) : State :=
  match s.pc.point with
  | .alloc => s.goto .announce
  | _ => s.atOp .announce

/-- A poll's result (R515): an unacknowledged candidate is taken; else the next one is polled; after the last one the
exhaustion is logged and the last candidate taken. -/
def allocResult (acked : Bool) (s : State) : State :=
  if acked then
    if h : s.pc.allocI.val + 1 < 4 then
      { s with pc := { s.pc with allocI := ⟨s.pc.allocI.val + 1, h⟩, op := .poll } }
    else
      let logged := s.log .alloc .addressExhausted
      afterAlloc { logged with pc := { logged.pc with la := some Config.candidates[3] } }
  else afterAlloc { s with pc := { s.pc with la := some Config.candidates[s.pc.allocI] } }

/-- After `resolve()`: to ALLOC at startup, to the allocation inside a `Reannounce`. -/
def afterResolve (s : State) : State :=
  match s.pc.point with
  | .resolve => s.goto .alloc
  | _ => allocStart s

/-- The announcement, `send(REPORT_PHYSICAL_ADDRESS())` (R368, R511). -/
def announceStart (s : State) : Result :=
  withLa s fun la => sendStart .announce (frameReportPhysicalAddress la s.pc.pa) s

/-- After the announcement: to RECEIVE at startup, back to the action list inside a `Reannounce`. -/
def afterAnnounce (s : State) : State :=
  match s.pc.point with
  | .announce => s.goto .receive
  | _ => s.atOp .run

/-! ### Actions (R513) -/

/-- `execute(a)` (R513). -/
def execute (a : Action) (s : State) : Result :=
  match a with
  | .send g => sendStart .reply g s
  | .key k => .next (emitKey k s)
  | .log e => .next (s.log .dispatch e)
  | .reannounce => .next (resolveStart s)

/-- The ACT label: the head action, or back to RECEIVE when the list is done (R445, R511). -/
def actStep (s : State) : Result :=
  match s.pc.actions with
  | [] => .next (s.goto .receive)
  | a :: rest => execute a { s with pc := { s.pc with actions := rest } }

/-! ### The program (R511) -/

/-- The frame that DISPATCH decodes (R374): a result without value is UNWRITTEN_READ; a frame of no byte has no byte
to read (R24, R376). -/
def dispatchStep (s : State) : Result :=
  match s.rx.len with
  | none => .fault .unwrittenRead
  | some n =>
    match decode (s.deliveredBytes n) with
    | .message i => exec i s
    | .rejected _ => .fault .indexRange

/-- The first line of each label (R511). -/
def labelStep (s : State) : Result :=
  match s.pc.point with
  | .boot => .next (s.goto .resolve)
  | .resolve => .next (resolveStart s)
  | .alloc => .next (allocStart s)
  | .announce => announceStart s
  | .receive => receiveStart s
  | .dispatch => dispatchStep s
  | .act => actStep s

/-- A result of 0 makes PC receive again; a frame is dispatched (R385, R511). -/
def receiveResult (n : Fin 17) (s : State) : State := if n = 0 then s.goto .receive else s.goto .dispatch

/-- What a send's result is used for: only a poll's is read (R382). -/
def sendResult (why : SendFor) (acked : Bool) (s : State) : State :=
  match why with
  | .poll => allocResult acked s
  | .announce => afterAnnounce s
  | .reply => s.atOp .run

/-- Taking the notification empties the slot (R104, R155). -/
def State.takeNotification (s : State) : State := { s with notifySlot := none }

/-- PC goes on from where it stands: from the code of its label, or from the operation whose condition now holds
(R510). Called when `pcReady`; where PC is still blocked nothing happens. -/
def pcStep (s : State) : Result :=
  match s.pc.op with
  | .run => labelStep s
  | .poll => allocPoll s
  | .announce => announceStart s
  | .resolving => .next (afterResolve (resolveEnd s))
  | .freeWait why f => sendLaunch why f s
  | .sending why =>
    match s.notifySlot with
    | some (.txDone acked) => .next (sendResult why acked s.takeNotification)
    | _ => .next s
  | .receiving =>
    match s.notifySlot with
    | some (.rxDone n) => .next (receiveResult n s.takeNotification)
    | _ => .next s
  | .keying k _ => .next (emitKeyEnd k s)

end Sys2Proof.Machine
end

