-- ==== Sys2Proof/Machine/Agents.lean ====
section
/-! DEFINITION. The agents side by side (00_scope.md section 3): which move comes next, what each move does, and how
far time may pass between two steps. A move whose agent is not enabled does nothing (notes/assumptions/2.md). -/

namespace Sys2Proof.Machine

/-! ### Time between steps (R510, R566, R572, R573) -/

/-- How far time may pass while a timer is armed: its step runs at most LAT_TIMER after `max(due, t_arm)` (R572). -/
def State.timerLimit (s : State) (timer : Option Alarm) (us : Nat) : Nat :=
  match timer with
  | none => us
  | some a =>
    if atOrAfter s.clock a.ready then min us (Config.latTimer - (s.elapsed a.ready).toNat)
    else if us ≤ (a.ready - s.clock).toNat then us
    else min us ((a.ready - s.clock).toNat + Config.latTimer)

/-- How far time may pass while an edge is pending: RX takes it at most LAT_EDGE after it happened (R566). -/
def State.edgeLimit (s : State) (us : Nat) : Nat :=
  match s.edgePending with
  | none => us
  | some e => min us (Config.latEdge - (s.elapsed e.time).toNat)

/-- How far time may pass while PC is blocked: not at all once its condition holds (R510); at most to EDID_TIMEOUT
after the request and to KEYQ_WAIT after the offer (R471, R585). -/
def State.pcLimit (s : State) (us : Nat) : Nat :=
  if s.pcReady then 0
  else
    match s.pc.op with
    | .resolving =>
      match s.edidReq with
      | none => us
      | some q => min us (Config.edidTimeout - (s.elapsed q.since).toNat)
    | .keying _ since => min us (Config.keyqWait - (s.elapsed since).toNat)
    | _ => us

/-- How much of a stretch of time may pass before some step is owed. -/
def State.timeLimit (s : State) (us : Nat) : Nat :=
  s.timerLimit s.txTimer (s.timerLimit s.rxaTimer (s.timerLimit s.freeTimer (s.edgeLimit (s.pcLimit us))))

/-- Time passes: the clock advances by the stretch, or as far as it may (R573, R574). -/
def State.timePasses (s : State) (us : Nat) : State := { s with clock := s.clock + micros (s.timeLimit us) }

/-! ### Moves (R8, R670) -/

/-- The next move: the head of the schedule, or a free value where the schedule names none (R570). -/
def State.nextMove (s : State) : Move × State :=
  match s.schedule with
  | m :: rest => (m, { s with schedule := rest })
  | [] => (Config.freeMove s.draws, { s with draws := s.draws + 1 })

/-- One move: an agent's step, an outside agent's act, or time. -/
def takeMove (m : Move) (s : State) : Result :=
  match m with
  | .rx => rxStep s
  | .rxa => rxaStep s
  | .tx => txStep s
  | .freeSample => freeStep s
  | .pc => if s.pcReady then pcStep s else .next s
  | .wait us => .next (s.timePasses us)
  | .env low => .next (s.driveEnv low)
  | .edid r => .next (s.edidAnswers r)
  | .host => .next s.hostTakes

/-- A step that is not PC's own: the next move is taken. -/
def agentStep (s : State) : Result := takeMove s.nextMove.1 s.nextMove.2

/-! ### A frame placed from outside -/

/-- A state in which PC stands at DISPATCH with this frame delivered, as after `RxDone` was taken (R374, R511): the
receive has ended, edges are disarmed, the slot is empty, and `pc.LA` has a value, as it has at every dispatch
(R521): the one it had, else the first candidate (notes/assumptions/4.md). -/
def State.withFrame (s : State) (f : List Byte) : State :=
  { s with
    rx :=
      { s.rx with
        phase := .done
        buf := Memory.putBytes [] 0 f
        len := some ⟨min f.length 16, by omega⟩ }
    pc := { s.pc with la := s.pc.la <|> some Config.candidates[0], point := .dispatch, op := .run }
    edgeArmed := false
    notifySlot := none }

end Sys2Proof.Machine
end

