-- ==== Sys2Proof/Machine/Step.lean ====
section
/-! DEFINITION. One step of the machine (R8, R573): PC goes on while it is not blocked, since no other agent's step
falls inside PC's; otherwise the next move is taken. A state that breaks the half-duplex discipline is the fault
HALF_DUPLEX (R160). -/

namespace Sys2Proof.Machine

def step (s : State) : Host.Outcome State Fault Refusal :=
  if s.halfDuplexBroken then .fault .halfDuplex
  else if s.pcRuns then pcStep s
  else agentStep s

/-- `s` with a table word's frame delivered, so that the very next step dispatches it (notes/assumptions/4.md). -/
def State.withFetchWord (s : State) (nbits w : Nat) : State := s.withFrame (frameOfWord nbits w)

end Sys2Proof.Machine
end

