-- ==== Sys2Proof/Machine/Run.lean ====
section
/-! DEFINITION. Runs, and the end of a finite test's run with its observed values (R665). The environment's script is
the outside moves that `State.schedule` still holds (notes/assumptions/2.md). -/

namespace Sys2Proof.Machine

/-- A move of an outside agent: ENV, EDID or HOST (R8, R670). -/
def isOutside : Move → Bool
  | .env _ => true
  | .edid _ => true
  | .host => true
  | .rx => false
  | .rxa => false
  | .tx => false
  | .freeSample => false
  | .pc => false
  | .wait _ => false

/-- Every action of the environment's script has happened (R665). -/
def State.scriptDone (s : State) : Bool := s.schedule.all fun m => !isOutside m

/-- The conditions R665 puts on the state itself: PC blocked in `receive()`, the receiver waiting with edges armed, no
send, no timer, no notification, the line high. -/
def State.quiescent (s : State) : Bool :=
  s.pc.point == .receive && s.pc.op == .receiving && s.rx.phase == .awaitStart && s.edgeArmed && s.tx.phase == .idle &&
    s.txTimer.isNone && s.rxaTimer.isNone && s.freeTimer.isNone && s.notifySlot.isNone && s.line

/-- A state that can end a run: the script is done and the state is quiescent (R665). -/
def State.runEnded (s : State) : Bool := s.scriptDone && s.quiescent

/-- The state after `k` steps, `none` where the machine has stopped before. -/
def runFor : Nat → State → Option State
  | 0, s => some s
  | k + 1, s =>
    match step s with
    | .next t => runFor k t
    | _ => none

/-- The end of the run from `s`: the first state, at most `k` steps on, that can end a run (R665). -/
def endOfRun : Nat → State → Option State
  | 0, s => if s.runEnded then some s else none
  | k + 1, s =>
    if s.runEnded then some s
    else
      match step s with
      | .next t => endOfRun k t
      | _ => none

/-- The observed values of a run (R665). -/
structure Observation where
  la : Option LogicalAddr
  pa : PhysicalAddr
  keyq : List Byte
  logq : List LogEntry
  framesSent : List SentFrame
  framesReceived : List (List Byte)
  deriving DecidableEq, Repr

/-- What a test reads from the state at the end of a run (R665). -/
def State.observed (s : State) : Observation :=
  { la := s.pc.la, pa := s.pc.pa, keyq := s.keyq, logq := s.logq, framesSent := s.framesSent
    framesReceived := s.framesReceived }

end Sys2Proof.Machine
end

