-- ==== Sys2Proof/Safety.lean ====
section
/-! DEFINITION. The terms claims use: the discipline a safe run keeps (R160, R266, R520, R521), the launch premises
(R675), the dispatch table on raw bytes (R400, R450), and the ideal line schedule with the edges a receiver reads from
it (R316, R375). The end of a run (R665) is in Machine/Run.lean. -/

namespace Sys2Proof.Machine

/-! ### The discipline -/

/-- No receive is running and nothing of one is left: edges disarmed, no edge pending, no ACK drive, no release timer. -/
def State.receiverQuiet (s : State) : Bool :=
  !s.receiveInFlight && !s.edgeArmed && s.edgePending.isNone && !s.rxDrive && !s.rx.ackActive && s.rxaTimer.isNone

/-- No send is running and nothing of one is left. -/
def State.transmitterQuiet (s : State) : Bool := s.tx.phase == .idle && s.txTimer.isNone && !s.txDrive

/-- A receive in flight between two steps (R242, R266): edges armed, the slot empty, the target known, the reference
edge known once a start bit began, and the ACK drive, its flag and its timer together, only in AckLow and with no edge
pending. -/
def State.receiverRunning (s : State) : Bool :=
  s.receiveInFlight && s.edgeArmed && s.notifySlot.isNone && s.rx.target.isSome &&
    (s.rx.phase == .awaitStart || s.rx.tref.isSome) &&
    s.rxDrive == s.rx.ackActive && s.rxaTimer.isSome == s.rx.ackActive &&
    (!s.rx.ackActive || (s.rx.phase == .ackLow && s.edgePending.isNone))

/-- A receive that has ended and whose result PC has not taken (R260, R560). -/
def State.receiverEnded (s : State) : Bool :=
  s.receiverQuiet &&
    (match s.notifySlot with
     | some (.rxDone n) => s.rx.len == some n
     | _ => false)

/-- A send in flight between two callbacks (R313): its timer armed, its length known, the slot empty. -/
def State.transmitterRunning (s : State) : Bool :=
  s.sendInFlight && s.txTimer.isSome && s.tx.len.isSome && s.notifySlot.isNone &&
    (s.txDrive ==
      (match s.tx.phase with
       | .startHigh | .dataHigh | .eomHigh | .ackHigh => true
       | _ => false))

/-- A send that has ended and whose result PC has not taken (R314). -/
def State.transmitterEnded (s : State) : Bool :=
  s.transmitterQuiet && (match s.notifySlot with | some (.txDone _) => true | _ => false)

/-- A frame that may be sent (R361). -/
def sendable (f : List Byte) : Bool := decide (1 ≤ f.length) && decide (f.length ≤ 16)

/-- The frame of an action may be sent. -/
def Action.sendable : Action → Bool
  | .send f => Machine.sendable f
  | _ => true

/-- What PC is doing fits its label (R511, R513). -/
def Pc.opFitsPoint (p : Pc) : Bool :=
  match p.op with
  | .run => true
  | .poll | .freeWait .poll _ | .sending .poll => p.point == .alloc || p.point == .act
  | .announce => p.point == .act
  | .freeWait .announce _ | .sending .announce => p.point == .announce || p.point == .act
  | .freeWait .reply _ | .sending .reply => p.point == .act
  | .resolving => p.point == .resolve || p.point == .act
  | .receiving => p.point == .receive
  | .keying _ _ => p.point == .act

/-- `pc.LA` has a value from the end of the first ALLOC on (R521). -/
def Pc.laKnown (p : Pc) : Bool :=
  match p.point with
  | .boot | .resolve | .alloc => true
  | _ => p.la.isSome

/-- `pc.LA` is one of CANDIDATES (R90). -/
def Pc.laIsCandidate (p : Pc) : Bool :=
  match p.la with
  | none => true
  | some la => Config.candidates.toList.contains la

/-- PC stands at DISPATCH only with a frame of at least one byte delivered (R511). -/
def State.frameAtDispatch (s : State) : Bool :=
  s.pc.point != .dispatch || (match s.rx.len with | some n => n != 0 | none => false)

/-- The bus and the slot are as PC's place in its program says (R160, R520). -/
def State.busFitsPc (s : State) : Bool :=
  match s.pc.op with
  | .run | .poll | .announce | .resolving | .keying _ _ =>
    s.receiverQuiet && s.transmitterQuiet && s.notifySlot.isNone && s.freeTimer.isNone
  | .freeWait _ f =>
    s.receiverQuiet && s.transmitterQuiet && s.notifySlot.isNone && sendable f &&
      s.freeTimer.isSome == decide (s.pc.freeCount.val < Config.freeBitCount)
  | .sending _ => s.receiverQuiet && s.freeTimer.isNone && (s.transmitterRunning || s.transmitterEnded)
  | .receiving => s.transmitterQuiet && s.freeTimer.isNone && (s.receiverRunning || s.receiverEnded)

/-- The discipline of the block, as one invariant of every step: both buffers in canonical form, the addresses and
the place of PC in order, every frame waiting to be sent sendable, and the bus as PC's place says. -/
def State.disciplined (s : State) : Bool :=
  s.rx.buf.wf && s.tx.frame.wf && s.pc.opFitsPoint && s.pc.laKnown && s.pc.laIsCandidate && s.frameAtDispatch &&
    s.pc.actions.all Action.sendable && s.busFitsPc

/-! ### What an RX step leaves, in the terms of R242 and R560 -/

/-- An RX step that took the pending edge and goes on receiving: edges are armed again (R242), `rx` is as given. -/
def State.receiving (s : State) (rx : Rx) : State := { s with edgePending := none, edgeArmed := true, rx := rx }

/-- An RX step that aborted with cause number `code`: the cause, a length of 0, the phase, one log event and
`RxDone(0)`; every other field of `rx` as before, edges disarmed (R242, R560). -/
def State.abortedWith (s : State) (code : Byte) (c : Cause) (d : Option Time) : State :=
  { s with
    edgePending := none
    edgeArmed := false
    rx := { s.rx with cause := code, len := some 0, phase := .abort }
    logq := s.logq ++ [⟨s.clock, .rx, .rxAbort c s.rx.phase d⟩]
    notifySlot := some (.rxDone 0) }

/-- An edge of this polarity is pending. -/
def State.edgeIs (s : State) (p : Polarity) : Bool :=
  match s.edgePending with
  | some e => e.polarity == p
  | none => false

/-! ### Data blocks and allocations as wholes (R480, R516) -/

/-- The offsets of the data blocks that lie inside the collection, from offset `i` on, at most `k` of them (R480). -/
def blockChain (e : List Byte) : Nat → Nat → List Nat
  | 0, _ => []
  | k + 1, i =>
    let next := i + 1 + ((extByte e i).extractLsb' 0 5).toNat
    if next ≤ min (extByte e 2).toNat 127 then i :: blockChain e k next else []

/-- An allocation run over the results of its polls: after each result, on to the next poll if there is one (R515). -/
def allocRun : List Bool → State → State
  | [], s => s
  | acked :: rest, s =>
    let t := allocResult acked s
    if t.pc.op = .poll then allocRun rest t else t

/-! ### Launch premises (R675) -/

/-- P_LAT. -/
abbrev PremiseLat : Prop := Config.latTimer + Config.latEdge ≤ 200

/-- P_PARAMS: the constraints on the OPEN parameters (R15, R16, R17). -/
abbrev PremiseParams : Prop :=
  (∀ u, Config.keymap u ≠ some Config.noKey) ∧ 1 ≤ Config.osdName.length ∧ Config.osdName.length ≤ 14 ∧
    1 ≤ Config.keyqDepth

/-! ### The dispatch table on raw frame bytes (R400, R450) -/

/-- `dispatch(f, LA, PA)` as the table of R450 states it, on the bytes of the frame: the header is f[0], the opcode
f[1], and operands are read by frame index. -/
def dispatchTable (f : List Byte) (la : LogicalAddr) (pa : PhysicalAddr) : List Action :=
  let n := f.length
  let b (k : Nat) : Byte := f.getD k 0
  let requester : LogicalAddr := (b 0).extractLsb' 4 4
  let dst : LogicalAddr := (b 0).extractLsb' 0 4
  let header (d : LogicalAddr) : Byte := la ++ d
  let high (p : PhysicalAddr) : Byte := p.extractLsb' 8 8
  let low (p : PhysicalAddr) : Byte := p.extractLsb' 0 8
  let whenUnicast (g : List Byte) : List Action := if dst = la then [.send g] else []
  let whenCue : List Action := if b 0 = 0x0F#8 then [.reannounce] else []
  let whenRouted (long : Bool) (address : PhysicalAddr) : List Action :=
    if long ∧ pa ≠ 0x0000#16 ∧ address = pa then
      [.send [header 0x0, 0x04], .send [header 0xF, 0x82, high pa, low pa]]
    else []
  if n ≤ 1 then []
  else
    match (b 1).toNat with
    | 0x44 =>
      if n < 3 then [.log (.malformed 0x44 n)]
      else
        match Config.keymap (b 2) with
        | some k => [.key k]
        | none => [.log (.keyUnmapped (b 2))]
    | 0x45 => [.key Config.noKey]
    | 0x46 => whenUnicast (header requester :: 0x47 :: Config.osdName)
    | 0x71 => whenUnicast [header requester, 0x7A, Config.audioStatus]
    | 0x7D => whenUnicast [header requester, 0x7E, Config.samStatus]
    | 0x80 => whenRouted (6 ≤ n) (b 4 ++ b 5)
    | 0x83 => whenUnicast [header 0xF, 0x84, high pa, low pa, Config.deviceType]
    | 0x84 => whenCue
    | 0x86 => whenRouted (4 ≤ n) (b 2 ++ b 3)
    | 0x87 => whenCue
    | 0x8C =>
      whenUnicast
        [header 0xF, 0x87, Config.vendorId.extractLsb' 16 8, Config.vendorId.extractLsb' 8 8,
          Config.vendorId.extractLsb' 0 8]
    | 0x8F => whenUnicast [header requester, 0x90, 0x00]
    | 0x9F => whenUnicast [header requester, 0x9E, Config.cecVersion]
    | _ => [.log (.unrecognized (b 1) n)]

/-! ### The ideal schedule of a send (R316) -/

/-- A line action of the transmitter in the notation of R226: LOW, REL, SMP and END. -/
inductive LineAction where
  | low
  | rel
  | smp
  | fin
  deriving DecidableEq, Repr

/-- The low time of bit `j` of a byte (R182). -/
def bitLow (b : Byte) (j : Nat) : Nat := if b.getLsbD j then 600 else 1500

/-- The low time of an EOM bit (R183). -/
def eomLow (last : Bool) : Nat := if last then 600 else 1500

/-- The line actions of byte block `k`, with offsets in microseconds from the start bit's falling edge (R316). -/
def idealByte (b : Byte) (last : Bool) (k : Nat) : List (Nat × LineAction) :=
  ((List.range 8).flatMap fun i =>
    let s := 4500 + 24000 * k + 2400 * i
    [(s, .low), (s + bitLow b (7 - i), .rel)]) ++
  (let s := 4500 + 24000 * k + 19200
   [(s, .low), (s + eomLow last, .rel)]) ++
  (let s := 4500 + 24000 * k + 21600
   [(s, .low), (s + 600, .rel), (s + 1050, .smp)])

/-- The ideal schedule of a send of `f` (R316). -/
def idealSchedule (f : List Byte) : List (Nat × LineAction) :=
  [(0, .low), (3700, .rel)] ++
  ((List.range f.length).flatMap fun k => idealByte (f.getD k 0) (k + 1 == f.length) k) ++
  [(4500 + 24000 * f.length, .fin)]

/-- What a callback did to the line, read from the states before and after it: it drove low, released, ended the
send, or (otherwise) sampled. -/
def lineActionOf (before after : State) : LineAction :=
  if !before.txDrive && after.txDrive then .low
  else if before.txDrive && !after.txDrive then .rel
  else if after.tx.phase = .idle then .fin
  else .smp

/-- The line actions of up to `k` transmitter callbacks from `s`, each run at its due time, with the clock value of
each. -/
def txTrace : Nat → State → List (Time × LineAction)
  | 0, _ => []
  | k + 1, s =>
    match s.txTimer with
    | none => []
    | some a =>
      match txCallback a { s with txTimer := none, clock := a.due } with
      | .next t => (a.due, lineActionOf s t) :: txTrace k t
      | _ => []

/-! ### The edges a receiver reads from a transmitted frame (R375) -/

/-- What happens to a receiver: an edge whose handler reads this clock value, or the release of its own ACK drive. -/
inductive RxEvent where
  | edge (p : Polarity) (t : Time)
  | release (t : Time)
  deriving DecidableEq, Repr

/-- One bit slot: its two edges at their ideal offsets from `base`, edge `e` read `late e` microseconds late. -/
def slotEvents (base : Time) (late : Nat → Nat) (e start low : Nat) : List RxEvent :=
  [.edge .falling (base + micros (start + late e)), .edge .rising (base + micros (start + low + late (e + 1)))]

/-- The ACK slot. A receiver that acknowledges holds the line for 1500 µs from the falling edge it read, and its
release makes the rising edge (R258, R262); otherwise the initiator's own release does, 600 µs after the edge. -/
def ackSlotEvents (base : Time) (late : Nat → Nat) (acks : Bool) (e start : Nat) : List RxEvent :=
  if acks then
    [.edge .falling (base + micros (start + late e)), .release (base + micros (start + late e + 1500)),
      .edge .rising (base + micros (start + late e + 1500 + late (e + 1)))]
  else slotEvents base late e start 600

/-- The events of byte block `k`. -/
def byteEvents (base : Time) (late : Nat → Nat) (acks : Bool) (b : Byte) (last : Bool) (k : Nat) : List RxEvent :=
  ((List.range 8).flatMap fun i =>
    slotEvents base late (2 + 20 * k + 2 * i) (4500 + 24000 * k + 2400 * i) (bitLow b (7 - i))) ++
  slotEvents base late (2 + 20 * k + 16) (4500 + 24000 * k + 19200) (eomLow last) ++
  ackSlotEvents base late acks (2 + 20 * k + 18) (4500 + 24000 * k + 21600)

/-- The events of a whole frame sent from `base` on. -/
def frameEvents (base : Time) (late : Nat → Nat) (acks : Bool) (f : List Byte) : List RxEvent :=
  slotEvents base late 0 0 3700 ++
  (List.range f.length).flatMap fun k => byteEvents base late acks (f.getD k 0) (k + 1 == f.length) k

/-- One event, taken by RX or RXA at its clock value. -/
def rxEvent (v : RxEvent) (s : State) : Result :=
  match v with
  | .edge p t => rxHandle p { s with clock := t }
  | .release t => .next (rxaRelease { s with clock := t })

/-- The receiver over a list of events. -/
def rxRun : List RxEvent → State → Result
  | [], s => .next s
  | v :: rest, s => andThen (rxEvent v s) (rxRun rest)

end Sys2Proof.Machine
end

