-- ==== Sys2Proof/Certificates/Slice0/Obligations.lean ====
section
/-! DEFINITION. The statements for the provers, one for each entry of OBLIGATIONS.json. In a statement about the
receiver, `d` is the interval the handler measures, the clock less `rx.tref` (R241). -/

open Sys2Proof Sys2Proof.Machine

/-! ## Reset, step, decoding -/

/-- R620, R111: the POR column, every piece of state the spec gives a POR value (the clock has none). Rests on the
spec's own choices D18, D19, D20. -/
def Obligations.ResetIsPowerOn : Prop :=
  (State.reset.rx.phase = .idle ∧ State.reset.rx.byte = 0 ∧ State.reset.rx.bit = 7 ∧ State.reset.rx.tref = none ∧
    State.reset.rx.ackActive = false ∧ State.reset.rx.eom = false ∧ State.reset.rx.target = none ∧
    (∀ i, State.reset.rx.buf.read i = 0x00#8) ∧ State.reset.rx.len = none ∧ State.reset.rx.cause = 0) ∧
  (State.reset.tx.phase = .idle ∧ (∀ i, State.reset.tx.frame.read i = 0x00#8) ∧ State.reset.tx.len = none ∧
    State.reset.tx.byte = 0 ∧ State.reset.tx.bit = 7 ∧ State.reset.tx.t0 = none ∧ State.reset.tx.ack = false) ∧
  (State.reset.pc.la = none ∧ State.reset.pc.pa = 0x0000#16 ∧ State.reset.pc.freeCount = 0 ∧
    State.reset.pc.point = .boot ∧ State.reset.pc.allocI = 0 ∧ State.reset.pc.actions = []) ∧
  (State.reset.edgeArmed = false ∧ State.reset.rxDrive = false ∧ State.reset.txDrive = false ∧
    State.reset.txTimer = none ∧ State.reset.rxaTimer = none ∧ State.reset.freeTimer = none ∧
    State.reset.notifySlot = none ∧ State.reset.keyq = [] ∧ State.reset.logq = [])

/-- The discipline holds at reset. -/
def Obligations.ResetIsDisciplined : Prop := State.reset.disciplined = true

/-- R160, R266, R520, R521 as one invariant of every step: from every state that keeps the discipline, a step
answers a next state, never a model fault or a refusal, and that state keeps the discipline again. -/
def Obligations.StepKeepsDisciplineAndNeverFaults : Prop :=
  ∀ s, s.disciplined = true → ∃ t, step s = .next t ∧ t.disciplined = true

/-- R160: a state with a receive and a send in flight at once, or with a send in flight and edges armed, is a model
fault. -/
def Obligations.HalfDuplexBreachFaults : Prop :=
  ∀ s, s.tx.phase ≠ .idle →
    ((s.rx.phase ≠ .idle ∧ s.rx.phase ≠ .done ∧ s.rx.phase ≠ .abort) ∨ s.edgeArmed = true) →
    step s = .fault .halfDuplex

/-- The DISPATCH label runs the instruction that the delivered bytes decode to, at that very state (R511, R374). Rests
on the spec's own choice D20 and on notes/assumptions/5.md. -/
def Obligations.StepRunsDecodedInstruction : Prop :=
  ∀ s n i, s.halfDuplexBroken = false → s.pc.point = .dispatch → s.pc.op = .run → s.rx.len = some n →
    decode (s.rx.buf.bytes n.val) = .message i → step s = exec i s

/-- A frame placed from outside is what the very next step runs, from every state (the model's choice of
notes/assumptions/4.md). -/
def Obligations.PlacedWordIsRunNext : Prop :=
  ∀ (s : State) (nbits w : Nat) (i : Instr), decodeTableWord nbits w = some i →
    step (s.withFetchWord nbits w) = exec i (s.withFetchWord nbits w)

/-- Decoding inverts encoding: for every well-formed instruction, every header, every operand list that fits. -/
def Obligations.DecodeOfEncode : Prop := ∀ i, i.wellFormed = true → decode (encode i) = .message i

/-- Every byte string of 1 to 16 bytes is a message (R210, R360, R361), and the reading is the only one: it is
well-formed and encodes to the frame again. That every other byte string is rejected by name is the model's own choice
(notes/assumptions/15.md), no rule of the spec. -/
def Obligations.DecodeIsTotalOnFrames : Prop :=
  (decode [] = .rejected .emptyFrame) ∧
  (∀ f, 1 ≤ f.length → f.length ≤ 16 → ∃ i, decode f = .message i) ∧
  (∀ f, 16 < f.length → decode f = .rejected .frameTooLong) ∧
  ∀ f i, decode f = .message i → i.wellFormed = true ∧ encode i = f

/-- Words written out from the frame format of R190 to R192 and the opcode table of R205. -/
def Obligations.WordsDecodeAsTheTableSays : Prop :=
  decode [0x44] = .message (.poll ⟨0x4, 0x4⟩) ∧
  decode [0x04, 0x36] = .message (.standby ⟨0x0, 0x4⟩ []) ∧
  decode [0x04, 0x44, 0x01] = .message (.userControlPressed ⟨0x0, 0x4⟩ [0x01]) ∧
  decode [0x14, 0x8F] = .message (.giveDevicePowerStatus ⟨0x1, 0x4⟩ []) ∧
  decode [0x0F, 0x80, 0x00, 0x00, 0x10, 0x20] = .message (.routingChange ⟨0x0, 0xF⟩ [0x00, 0x00, 0x10, 0x20]) ∧
  decode [0x0F, 0x84, 0x00, 0x00, 0x00] = .message (.reportPhysicalAddress ⟨0x0, 0xF⟩ [0x00, 0x00, 0x00]) ∧
  decode [0x04, 0xC0] = .message (.unnamedOpcode 0xC0 ⟨0x0, 0x4⟩ [])

/-! ## Instructions -/

/-- The dispatcher on decoded instructions is the table of R450 on raw frame bytes: for every frame of 1 to 16 bytes
its instruction completes in every state in which `pc.LA` has a value, and what it leaves is the state with the
table's action list, at ACT. Every constructor of Instr is met by some frame. Rests on the spec's own choices D20,
D47, D48, D53 to D58. -/
def Obligations.DispatchIsTheTableOnBytes : Prop :=
  ∀ f, 1 ≤ f.length → f.length ≤ 16 →
    ∃ i, decode f = .message i ∧
      ∀ s la, s.pc.la = some la →
        exec i s = .next { s with pc := { s.pc with actions := dispatchTable f la s.pc.pa, point := .act } }

/-- R405: a Poll has no reaction. -/
def Obligations.PollHasNoReaction : Prop :=
  ∀ h s, exec (.poll h) s = .next { s with pc := { s.pc with actions := [], point := .act } }

/-- R404 and R410 to R424: opcodes without a handler are logged as unrecognized, cause 40, in every state, for every
header and every operands; nothing else happens. -/
def Obligations.UnhandledOpcodesAreLoggedLow : Prop :=
  (∀ op n, (LogInfo.unrecognized op n).cause.code = 40#8) ∧
  ∀ h ops s,
    let logged (op : Byte) : Result :=
      .next { s with pc := { s.pc with actions := [.log (.unrecognized op (ops.length + 2))], point := .act } }
    exec (.imageViewOn h ops) s = logged 0x04 ∧ exec (.textViewOn h ops) s = logged 0x0D ∧
    exec (.standby h ops) s = logged 0x36 ∧ exec (.setOsdName h ops) s = logged 0x47 ∧
    exec (.systemAudioModeRequest h ops) s = logged 0x70 ∧ exec (.setSystemAudioMode h ops) s = logged 0x72 ∧
    exec (.reportAudioStatus h ops) s = logged 0x7A ∧ exec (.reportSystemAudioModeStatus h ops) s = logged 0x7E ∧
    exec (.reportMenuLanguageAsNamed h ops) s = logged 0x81

/-- R404 and R425 to R441: the other opcodes without a handler, and every opcode byte without a name. -/
def Obligations.UnhandledOpcodesAreLoggedHigh : Prop :=
  ∀ h ops s,
    let logged (op : Byte) : Result :=
      .next { s with pc := { s.pc with actions := [.log (.unrecognized op (ops.length + 2))], point := .act } }
    exec (.activeSource h ops) s = logged 0x82 ∧ exec (.requestActiveSource h ops) s = logged 0x85 ∧
    exec (.menuStatus h ops) s = logged 0x8E ∧ exec (.reportPowerStatus h ops) s = logged 0x90 ∧
    exec (.getMenuLanguage h ops) s = logged 0x91 ∧ exec (.inactiveSource h ops) s = logged 0x9D ∧
    exec (.cecVersion h ops) s = logged 0x9E ∧ exec (.vendorCommandWithId h ops) s = logged 0xA0 ∧
    exec (.abort h ops) s = logged 0xFF ∧ ∀ op, exec (.unnamedOpcode op h ops) s = logged op

/-- R413, R414: User Control Pressed gives its keycode, or logs an unmapped command (cause 41) or a missing operand
(cause 43); User Control Released gives NO_KEY; whatever the address. Rests on the spec's own choices D35, D55, D56.
-/
def Obligations.UserControlGivesKeys : Prop :=
  (∀ u, (LogInfo.keyUnmapped u).cause.code = 41#8) ∧ (∀ op n, (LogInfo.malformed op n).cause.code = 43#8) ∧
  ∀ h s,
    let acts (as : List Action) : Result := .next { s with pc := { s.pc with actions := as, point := .act } }
    exec (.userControlPressed h []) s = acts [.log (.malformed 0x44 2)] ∧
    (∀ u rest,
      exec (.userControlPressed h (u :: rest)) s =
        acts [match Config.keymap u with | some k => .key k | none => .log (.keyUnmapped u)]) ∧
    ∀ ops, exec (.userControlReleased h ops) s = acts [.key Config.noKey]

/-- R415, R418, R421, R426, R432, R434, R439 with R364 to R370: each unicast request is answered with the reply the
rules build, to the requester or broadcast as they say, exactly when its destination is `pc.LA`. Rests on the spec's
own choices D47, D48. -/
def Obligations.UnicastRequestsAreAnswered : Prop :=
  ∀ h ops s la, s.pc.la = some la →
    let answer (g : List Byte) : Result :=
      .next { s with pc := { s.pc with actions := if h.dst = la then [.send g] else [], point := .act } }
    exec (.giveOsdName h ops) s = answer ((la ++ h.init) :: 0x47 :: Config.osdName) ∧
    exec (.giveAudioStatus h ops) s = answer [la ++ h.init, 0x7A, Config.audioStatus] ∧
    exec (.giveSystemAudioModeStatus h ops) s = answer [la ++ h.init, 0x7E, Config.samStatus] ∧
    exec (.givePhysicalAddress h ops) s =
      answer [la ++ 0xF#4, 0x84, s.pc.pa.extractLsb' 8 8, s.pc.pa.extractLsb' 0 8, Config.deviceType] ∧
    exec (.giveDeviceVendorId h ops) s =
      answer [la ++ 0xF#4, 0x87, Config.vendorId.extractLsb' 16 8, Config.vendorId.extractLsb' 8 8,
        Config.vendorId.extractLsb' 0 8] ∧
    exec (.giveDevicePowerStatus h ops) s = answer [la ++ h.init, 0x90, 0x00] ∧
    exec (.getCecVersion h ops) s = answer [la ++ h.init, 0x9E, Config.cecVersion]

/-- R423, R429 with R371, R372: a routing message whose address operand is the known PA is answered with Image View On
and Active Source; a short frame, another address or an unknown PA gives no reaction. Rests on the spec's own choices
D26, D47, D57. -/
def Obligations.RoutingMessagesAreAnswered : Prop :=
  ∀ h ops s la, s.pc.la = some la →
    let routed (b : Prop) [Decidable b] : Result :=
      .next { s with
        pc :=
          { s.pc with
            actions :=
              if b then
                [.send [la ++ 0x0#4, 0x04],
                  .send [la ++ 0xF#4, 0x82, s.pc.pa.extractLsb' 8 8, s.pc.pa.extractLsb' 0 8]]
              else []
            point := .act } }
    exec (.routingChange h ops) s =
      routed (4 ≤ ops.length ∧ s.pc.pa ≠ 0x0000#16 ∧ ops.getD 2 0 ++ ops.getD 3 0 = s.pc.pa) ∧
    exec (.setStreamPath h ops) s =
      routed (2 ≤ ops.length ∧ s.pc.pa ≠ 0x0000#16 ∧ ops.getD 0 0 ++ ops.getD 1 0 = s.pc.pa)

/-- R427, R431: the root device's broadcast makes the block announce itself again, and nothing else does. Rests on the
spec's own choice D58. -/
def Obligations.RootCueReannounces : Prop :=
  ∀ h ops s,
    let cued : Result :=
      .next { s with
        pc := { s.pc with actions := if h = ⟨0x0, 0xF⟩ then [.reannounce] else [], point := .act } }
    exec (.reportPhysicalAddress h ops) s = cued ∧ exec (.deviceVendorId h ops) s = cued

/-- R362, R90: while `pc.LA` has no value every rule that builds a frame with it, or compares with it, is the fault
UNWRITTEN_READ: the unicast requests, a routing message that is answered, and the announcement, at ANNOUNCE and inside
a Reannounce. That a routing message reads `pc.LA` only once its operand has named this device is read from R423, R429
by inference (notes/assumptions/11.md). Rests on the spec's own choices D18, D47. -/
def Obligations.RequestsBeforeAllocationFault : Prop :=
  (∀ s : State, s.pc.la = none →
    (s.pc.point = .announce → s.pc.op = .run → pcStep s = .fault .unwrittenRead) ∧
    (s.pc.op = .announce → pcStep s = .fault .unwrittenRead)) ∧
  ∀ h ops s, s.pc.la = none →
    exec (.giveOsdName h ops) s = .fault .unwrittenRead ∧ exec (.giveAudioStatus h ops) s = .fault .unwrittenRead ∧
    exec (.giveSystemAudioModeStatus h ops) s = .fault .unwrittenRead ∧
    exec (.givePhysicalAddress h ops) s = .fault .unwrittenRead ∧
    exec (.giveDeviceVendorId h ops) s = .fault .unwrittenRead ∧
    exec (.giveDevicePowerStatus h ops) s = .fault .unwrittenRead ∧
    exec (.getCecVersion h ops) s = .fault .unwrittenRead ∧
    (4 ≤ ops.length → s.pc.pa ≠ 0x0000#16 → ops.getD 2 0 ++ ops.getD 3 0 = s.pc.pa →
      exec (.routingChange h ops) s = .fault .unwrittenRead) ∧
    (2 ≤ ops.length → s.pc.pa ≠ 0x0000#16 → ops.getD 0 0 ++ ops.getD 1 0 = s.pc.pa →
      exec (.setStreamPath h ops) s = .fault .unwrittenRead)

/-- The frame of every instruction: when it gives a next state, only the action list and the program point have
changed. Every other register, both buffers byte by byte, the line, the timers, the slot and the channels are as
before. Rests on the spec's own choice D20. -/
def Obligations.InstructionFrame : Prop :=
  ∀ i s t, exec i s = .next t →
    (∀ a, t.rx.buf.get a = s.rx.buf.get a) ∧ (∀ a, t.tx.frame.get a = s.tx.frame.get a) ∧
    t.pc.point = .act ∧ t.pc.la = s.pc.la ∧ t.pc.pa = s.pc.pa ∧ t.pc.freeCount = s.pc.freeCount ∧
    t.pc.allocI = s.pc.allocI ∧ t.pc.op = s.pc.op ∧ { t with pc := s.pc } = s

/-- R400, R156: the action list is a function of the instruction, `pc.LA` and `pc.PA` alone. Rests on the spec's own
choice D20. -/
def Obligations.DispatchDependsOnAddressesOnly : Prop :=
  ∀ i s₁ s₂ t₁, s₁.pc.la = s₂.pc.la → s₁.pc.pa = s₂.pc.pa → exec i s₁ = .next t₁ →
    ∃ t₂, exec i s₂ = .next t₂ ∧ t₂.pc.actions = t₁.pc.actions

/-- What an action list can hold: Reannounce, the only action that writes the addresses, is always the only action of
its list (R446), and every frame a dispatch asks to send has 1 to 16 bytes (R213, R361). Rests on the spec's own
choices D10, D20. -/
def Obligations.DispatchActionLists : Prop :=
  ∀ i s t, exec i s = .next t →
    (Action.reannounce ∈ t.pc.actions → t.pc.actions = [.reannounce]) ∧
    ∀ g, Action.send g ∈ t.pc.actions → 1 ≤ g.length ∧ g.length ≤ 16

/-! ## Receiver -/

/-- R244 to R248: the start bit. In AwaitStart a rising edge is ignored and a falling edge begins a start bit; its low
time and its period are checked, and the period's end begins byte 0. Rests on the spec's own choices D14, D32. -/
def Obligations.StartBitEdges : Prop :=
  ∀ s,
    (s.rx.phase = .awaitStart →
      (s.edgeIs .rising = true → rxStep s = .next (s.receiving s.rx)) ∧
      (s.edgeIs .falling = true →
        rxStep s = .next (s.receiving { s.rx with tref := some s.clock, phase := .startLow }))) ∧
    ∀ t₀, s.rx.tref = some t₀ → s.notifySlot = none →
      let d := (s.clock - t₀).toNat
      (s.rx.phase = .startLow → s.edgeIs .rising = true →
        rxStep s = .next
          (if 3500 ≤ d ∧ d ≤ 3900 then s.receiving { s.rx with phase := .startHigh }
           else s.abortedWith 1 .rxStartLowTiming (some (s.clock - t₀)))) ∧
      (s.rx.phase = .startHigh → s.edgeIs .falling = true →
        rxStep s = .next
          (if 4300 ≤ d ∧ d ≤ 4700 then
            s.receiving { s.rx with
              tref := some s.clock, byte := 0, bit := 7, buf := s.rx.buf.write 0 0x00, eom := false
              phase := .dataLow }
           else s.abortedWith 2 .rxStartPeriodTiming (some (s.clock - t₀))))

/-- R250, R251: a data bit. Its low time is 1 in [400, 800] and 0 in [1300, 1700], shifted into the byte, and aborts
elsewhere; its period ends it: on to the next bit, after bit 0 to the EOM bit. -/
def Obligations.DataBitEdges : Prop :=
  ∀ s t₀, s.rx.tref = some t₀ → s.notifySlot = none →
    let d := (s.clock - t₀).toNat
    (s.rx.phase = .dataLow → s.edgeIs .rising = true →
      rxStep s = .next
        (if 400 ≤ d ∧ d ≤ 800 then
          s.receiving { s.rx with
            buf := s.rx.buf.write s.rx.byte ((s.rx.buf.read s.rx.byte <<< 1) ||| 1#8), phase := .dataHigh }
         else if 1300 ≤ d ∧ d ≤ 1700 then
          s.receiving { s.rx with
            buf := s.rx.buf.write s.rx.byte (s.rx.buf.read s.rx.byte <<< 1), phase := .dataHigh }
         else s.abortedWith 3 .rxDataLowTiming (some (s.clock - t₀)))) ∧
    (s.rx.phase = .dataHigh → s.edgeIs .falling = true →
      ∃ t, rxStep s = .next t ∧
        if 2050 ≤ d ∧ d ≤ 2750 then
          if s.rx.bit.val = 0 then t = s.receiving { s.rx with tref := some s.clock, phase := .eomLow }
          else ∃ b : Fin 8, b.val = s.rx.bit.val - 1 ∧
            t = s.receiving { s.rx with tref := some s.clock, bit := b, phase := .dataLow }
        else t = s.abortedWith 4 .rxDataPeriodTiming (some (s.clock - t₀)))

/-- R256, R257 with R252 and R258: the EOM bit, and the ACK drive that may follow it: the receiver pulls the line low,
to be released 1500 µs after this edge, exactly when the header's destination is its target or 0xF. Rests on the
spec's own choices D37, D38. -/
def Obligations.EomBitEdgesAndAckDrive : Prop :=
  ∀ s t₀, s.rx.tref = some t₀ → s.notifySlot = none →
    let d := (s.clock - t₀).toNat
    (s.rx.phase = .eomLow → s.edgeIs .rising = true →
      rxStep s = .next
        (if 400 ≤ d ∧ d ≤ 800 then s.receiving { s.rx with eom := true, phase := .eomHigh }
         else if 1300 ≤ d ∧ d ≤ 1700 then s.receiving { s.rx with eom := false, phase := .eomHigh }
         else s.abortedWith 5 .rxEomLowTiming (some (s.clock - t₀)))) ∧
    (s.rx.phase = .eomHigh → s.edgeIs .falling = true → ∀ target, s.rx.target = some target →
      rxStep s = .next
        (if 2050 ≤ d ∧ d ≤ 2750 then
          if (s.rx.buf.read 0).extractLsb' 0 4 = target ∨ (s.rx.buf.read 0).extractLsb' 0 4 = 0xF#4 then
            { s.receiving { s.rx with tref := some s.clock, phase := .ackLow, ackActive := true } with
              rxDrive := true, rxaTimer := some ⟨s.clock + 1500#64, s.clock⟩ }
          else s.receiving { s.rx with tref := some s.clock, phase := .ackLow }
         else s.abortedWith 6 .rxEomPeriodTiming (some (s.clock - t₀))))

/-- R260, R264: the ACK bit. Its low time may lie in either window; after the last byte block the frame is complete,
its length `rx.byte + 1`, and PC is notified. Its period begins the next byte block; the period is checked first, then
a 17th byte block aborts. Rests on the spec's own choices D14, D34. That cause 10 records the period is read from R552
(notes/assumptions/12.md); the entry in `framesReceived` is the model's (notes/assumptions/10.md). -/
def Obligations.AckBitEdges : Prop :=
  ∀ s t₀, s.rx.tref = some t₀ → s.notifySlot = none →
    let d := (s.clock - t₀).toNat
    (s.rx.phase = .ackLow → s.edgeIs .rising = true →
      ∃ t, rxStep s = .next t ∧
        if (400 ≤ d ∧ d ≤ 800) ∨ (1300 ≤ d ∧ d ≤ 1700) then
          if s.rx.eom = true then
            ∃ n : Fin 17, n.val = s.rx.byte.toNat + 1 ∧
              t = { s with
                edgePending := none, edgeArmed := false
                rx := { s.rx with len := some n, phase := .done }
                notifySlot := some (.rxDone n)
                framesReceived := s.framesReceived ++ [s.rx.buf.bytes n.val] }
          else t = s.receiving { s.rx with phase := .ackHigh }
        else t = s.abortedWith 7 .rxAckLowTiming (some (s.clock - t₀))) ∧
    (s.rx.phase = .ackHigh → s.edgeIs .falling = true →
      rxStep s = .next
        (if 2050 ≤ d ∧ d ≤ 2750 then
          if s.rx.byte = 15#4 then s.abortedWith 10 .rxFrameOverflow (some (s.clock - t₀))
          else s.receiving { s.rx with
            tref := some s.clock, byte := s.rx.byte + 1, bit := 7, buf := s.rx.buf.write (s.rx.byte + 1) 0x00
            eom := false, phase := .dataLow }
         else s.abortedWith 8 .rxAckPeriodTiming (some (s.clock - t₀))))

/-- R243: an edge of the wrong polarity aborts with cause 9. That no interval is recorded is read from R552
(notes/assumptions/12.md). Rests on the spec's own choice D32. -/
def Obligations.WrongPolarityAborts : Prop :=
  ∀ s, s.notifySlot = none →
    ((s.rx.phase = .startLow ∨ s.rx.phase = .dataLow ∨ s.rx.phase = .eomLow ∨ s.rx.phase = .ackLow) →
      s.edgeIs .falling = true → rxStep s = .next (s.abortedWith 9 .rxUnexpectedEdge none)) ∧
    ((s.rx.phase = .startHigh ∨ s.rx.phase = .dataHigh ∨ s.rx.phase = .eomHigh ∨ s.rx.phase = .ackHigh) →
      s.edgeIs .rising = true → rxStep s = .next (s.abortedWith 9 .rxUnexpectedEdge none))

/-- R560: the abort is precise. Whenever an RX step ends a receive by an abort, whichever rule raised it, it wrote
only the cause (1 to 10), a length of 0, the phase, one log event with the phase it was in, and `RxDone(0)`. Rests on
the spec's own choices D15, D46. -/
def Obligations.EveryAbortIsPrecise : Prop :=
  ∀ s t, rxStep s = .next t → s.rx.phase ≠ .abort → t.rx.phase = .abort →
    ∃ c d, 1 ≤ c.code.toNat ∧ c.code.toNat ≤ 10 ∧ s.notifySlot = none ∧ t = s.abortedWith c.code c d

/-- R242: whatever the edge, the handler takes it, and on exit edges are armed unless the receive has ended. Rests on
the spec's own choice D21. -/
def Obligations.HandlerArmsUnlessEnded : Prop :=
  ∀ s t, s.edgePending.isSome = true → rxStep s = .next t →
    t.edgePending = none ∧ (t.edgeArmed = true ↔ t.rx.phase ≠ .done ∧ t.rx.phase ≠ .abort)

/-- R262: the ACK release, in every phase; where nobody else holds the line it makes the line's rising edge. -/
def Obligations.AckReleaseStep : Prop :=
  ∀ s, s.fires s.rxaTimer = true →
    ∃ t, rxaStep s = .next t ∧ t.rxDrive = false ∧ t.rx = { s.rx with ackActive := false } ∧ t.rxaTimer = none ∧
      (s.rxDrive = true → s.txDrive = false → s.envLow = false → s.edgeArmed = true → s.edgePending = none →
        t.edgePending = some ⟨.rising, s.clock⟩) ∧
      (s.envLow = true → t.edgePending = s.edgePending)

/-- R375 with R260 and R268: from AwaitStart, the edges of a frame of 1 to 16 bytes, each read at most 200 µs late
(as P_LAT guarantees), leave the receiver Done with exactly that frame and notify PC of it, whether or not the
receiver acknowledges; when it does, its own release 1500 µs after the edge it read makes the ACK slot's rising edge. -/
def Obligations.ReceiverReadsBackTransmittedFrame : Prop :=
  ∀ f late base s target, 1 ≤ f.length → f.length ≤ 16 → (∀ k, late k ≤ 200) →
    s.rx.phase = .awaitStart → s.rx.target = some target → s.rx.buf.wf = true → s.notifySlot = none →
    ∃ t n, rxRun (frameEvents base late (ackWanted (f.getD 0 0) target) f) s = .next t ∧
      t.rx.phase = .done ∧ t.rx.len = some n ∧ n.val = f.length ∧ t.rx.buf.bytes n.val = f ∧
      t.notifySlot = some (.rxDone n)

/-! ## Transmitter -/

/-- R303, R304: the two callbacks of the start bit. -/
def Obligations.StartBitCallbacks : Prop :=
  ∀ s a, s.txTimer = some a → s.fires s.txTimer = true → s.edgeArmed = false →
    (s.tx.phase = .startLow →
      txStep s = .next { s with
        txDrive := true, txTimer := some ⟨a.due + 3700#64, s.clock⟩
        tx := { s.tx with t0 := some s.clock, phase := .startHigh } }) ∧
    (s.tx.phase = .startHigh →
      txStep s = .next { s with
        txDrive := false, txTimer := some ⟨a.due + 800#64, s.clock⟩, tx := { s.tx with phase := .dataLow } })

/-- R305 to R307: the two callbacks of a data bit: the low time is 600 or 1500 by the bit, the slot always 2400. -/
def Obligations.DataBitCallbacks : Prop :=
  ∀ s a, s.txTimer = some a → s.fires s.txTimer = true → s.edgeArmed = false →
    let one := (s.tx.frame.read s.tx.byte).getLsbD s.tx.bit.val
    (s.tx.phase = .dataLow →
      txStep s = .next { s with
        txDrive := true, txTimer := some ⟨a.due + (if one then 600#64 else 1500#64), s.clock⟩
        tx := { s.tx with phase := .dataHigh } }) ∧
    (s.tx.phase = .dataHigh →
      ∃ tx', txStep s = .next { s with
          txDrive := false, txTimer := some ⟨a.due + (if one then 1800#64 else 900#64), s.clock⟩, tx := tx' } ∧
        if s.tx.bit.val = 0 then tx' = { s.tx with phase := .eomLow }
        else ∃ b : Fin 8, b.val = s.tx.bit.val - 1 ∧ tx' = { s.tx with bit := b, phase := .dataLow })

/-- R308, R309: the two callbacks of the EOM bit: 600 on the last byte only. -/
def Obligations.EomBitCallbacks : Prop :=
  ∀ s a n, s.txTimer = some a → s.fires s.txTimer = true → s.edgeArmed = false → s.tx.len = some n →
    (s.tx.phase = .eomLow →
      txStep s = .next { s with
        txDrive := true
        txTimer := some ⟨a.due + (if s.tx.byte.toNat + 1 = n.val then 600#64 else 1500#64), s.clock⟩
        tx := { s.tx with phase := .eomHigh } }) ∧
    (s.tx.phase = .eomHigh →
      txStep s = .next { s with
        txDrive := false
        txTimer := some ⟨a.due + (if s.tx.byte.toNat + 1 = n.val then 1800#64 else 900#64), s.clock⟩
        tx := { s.tx with phase := .ackLow } })

/-- R310 to R312: the ACK slot: 600 low, the sample 1050 after the slot's falling edge, and on to the next byte or to
Done at the slot's end. Rests on the spec's own choice D17. -/
def Obligations.AckSlotCallbacks : Prop :=
  ∀ s a n, s.txTimer = some a → s.fires s.txTimer = true → s.edgeArmed = false → s.tx.len = some n →
    (s.tx.phase = .ackLow →
      txStep s = .next { s with
        txDrive := true, txTimer := some ⟨a.due + 600#64, s.clock⟩, tx := { s.tx with phase := .ackHigh } }) ∧
    (s.tx.phase = .ackHigh →
      txStep s = .next { s with
        txDrive := false, txTimer := some ⟨a.due + 450#64, s.clock⟩, tx := { s.tx with phase := .ackWait } }) ∧
    (s.tx.phase = .ackWait →
      txStep s = .next { s with
        txTimer := some ⟨a.due + 1350#64, s.clock⟩
        tx :=
          if s.tx.byte.toNat + 1 = n.val then { s.tx with ack := s.tx.ack && !s.line, phase := .done }
          else { s.tx with ack := s.tx.ack && !s.line, byte := s.tx.byte + 1, bit := 7, phase := .dataLow } })

/-- R314: the Done callback ends the send, notifies PC of the acknowledgement flag, and leaves the timer disarmed. The
frame entered as sent is the one that was sent, `tx.frame[0..tx.len-1]`, with that flag (R665; notes/assumptions/10.md);
where `tx.len` has no value the statement says nothing about the frame entered (notes/assumptions/16.md). Rests on
the spec's own choice D17. -/
def Obligations.DoneCallbackNotifies : Prop :=
  ∀ s, s.txTimer.isSome = true → s.fires s.txTimer = true → s.tx.phase = .done → s.notifySlot = none →
    ∃ sent, txStep s = .next { s with
        txTimer := none, tx := { s.tx with phase := .idle }, notifySlot := some (.txDone s.tx.ack)
        framesSent := s.framesSent ++ [⟨sent, s.tx.ack⟩] } ∧
      ∀ n, s.tx.len = some n → sent = s.tx.frame.bytes n.val

/-- R315: the transmitter has no abort and no error outcome: with a send in flight every callback answers a next
state, no phase but Done notifies, and only Done leaves the timer disarmed. Rests on the spec's own choice D45. -/
def Obligations.TransmitterNeverAborts : Prop :=
  ∀ s, s.fires s.txTimer = true → s.tx.phase ≠ .idle → s.tx.len.isSome = true → s.notifySlot = none →
    ∃ t, txStep s = .next t ∧
      (s.tx.phase ≠ .done → t.notifySlot = none ∧ t.txTimer.isSome = true ∧ t.tx.phase ≠ .idle) ∧
      (s.tx.phase = .done → t.notifySlot = some (.txDone s.tx.ack) ∧ t.txTimer = none ∧ t.tx.phase = .idle)

/-- R316: with every callback run at its due time, a send of a frame of 1 to 16 bytes makes exactly the line actions
of the ideal schedule, at the clock of the launch plus their offsets. -/
def Obligations.SendFollowsIdealSchedule : Prop :=
  ∀ f why s t, 1 ≤ f.length → f.length ≤ 16 → s.tx.frame.wf = true → s.txDrive = false → s.notifySlot = none →
    sendLaunch why f s = .next t →
    txTrace (21 * f.length + 3) t = (idealSchedule f).map fun p => (s.clock + micros p.1, p.2)

/-- R301: the bus-free sample counts consecutive high samples, a low one sets the count to 0, and the next sample is
due 2400 µs after this one until seven have been counted. Rests on the spec's own choice D41. -/
def Obligations.BusFreeSample : Prop :=
  ∀ s a, s.freeTimer = some a → s.fires s.freeTimer = true → s.pc.freeCount.val < 7 →
    ∃ c : Fin 8, (c.val = if s.line then s.pc.freeCount.val + 1 else 0) ∧
      freeStep s = .next { s with
        pc := { s.pc with freeCount := c }
        freeTimer := if c.val < 7 then some ⟨a.due + 2400#64, s.clock⟩ else none }

/-! ## Protocol context -/

/-- R380, R300: a send. At its start a frame of no byte or more than 16 is refused, a block that is not idle is the
fault SEND_NOT_IDLE, and otherwise the bus-free wait begins, its first sample due 2400 µs from now. The wait ends when
seven high samples are counted: before, PC is left alone; then PC writes the frame and the send-start values and makes
the first callback due at once, and the frame reads back whole; then PC is left alone until the slot holds TxDone.
Rests on the spec's own choices D10, D41, D42 and on notes/assumptions/5.md. -/
def Obligations.SendStartsAndLaunches : Prop :=
  (∀ why f s,
    ((f.length = 0 ∨ 16 < f.length) → sendStart why f s = .refused .sendLength) ∧
    (1 ≤ f.length → f.length ≤ 16 →
      (s.tx.phase = .idle → s.notifySlot = none → s.edgeArmed = false → s.rx.ackActive = false →
        sendStart why f s = .next { s with
          pc := { s.pc with freeCount := 0, op := .freeWait why f }
          freeTimer := some ⟨s.clock + 2400#64, s.clock⟩ }) ∧
      ((s.tx.phase ≠ .idle ∨ s.notifySlot ≠ none ∨ s.edgeArmed = true ∨ s.rx.ackActive = true) →
        sendStart why f s = .fault .sendNotIdle))) ∧
  (∀ s why, s.pc.op = .sending why →
    ((∀ a, s.notifySlot ≠ some (.txDone a)) → s.pcReady = false ∧ takeMove .pc s = .next s) ∧
    ∀ a, s.notifySlot = some (.txDone a) → s.pcReady = true ∧ takeMove .pc s = pcStep s) ∧
  ∀ s why f, s.pc.op = .freeWait why f →
    (s.pcReady = true ↔ s.pc.freeCount.val = 7) ∧
    (s.pc.freeCount.val < 7 → takeMove .pc s = .next s) ∧
    (s.pc.freeCount.val = 7 → 1 ≤ f.length → f.length ≤ 16 → s.tx.frame.wf = true →
      ∃ t n, takeMove .pc s = .next t ∧ n.val = f.length ∧ t.tx.len = some n ∧ t.tx.frame.bytes n.val = f ∧
        t.tx.phase = .startLow ∧ t.tx.byte = 0 ∧ t.tx.bit = 7 ∧ t.tx.ack = true ∧ t.tx.t0 = none ∧
        t.txTimer = some ⟨s.clock, s.clock⟩ ∧ t.pc = { s.pc with op := .sending why } ∧ t.rx = s.rx ∧
        ∀ i, f.length ≤ i → t.tx.frame.get i = s.tx.frame.get i)

/-- R383: `receive()` at the RECEIVE label: its require line, the read of `pc.LA`, the receive-start values. Rests on
the spec's own choices D14, D21. -/
def Obligations.ReceiveStartResets : Prop :=
  ∀ s, s.pc.point = .receive → s.pc.op = .run →
    ((s.tx.phase ≠ .idle ∨ s.notifySlot ≠ none ∨ s.rx.ackActive = true) → pcStep s = .fault .receiveNotIdle) ∧
    (s.tx.phase = .idle → s.notifySlot = none → s.rx.ackActive = false →
      (s.pc.la = none → pcStep s = .fault .unwrittenRead) ∧
      ∀ la, s.pc.la = some la →
        ∃ t, pcStep s = .next t ∧ t.rx.phase = .awaitStart ∧ t.rx.byte = 0 ∧ t.rx.bit = 7 ∧ t.rx.ackActive = false ∧ t.rx.eom = false ∧
          t.rx.cause = 0 ∧ (∀ i, t.rx.buf.read i = 0x00#8) ∧ t.rx.target = some la ∧ t.rx.tref = none ∧
          t.rx.len = none ∧ t.edgeArmed = true ∧ t.pc = { s.pc with op := .receiving } ∧ t.tx = s.tx)

/-- R383, R384, R385, R510: PC is blocked in `receive()` until the slot holds RxDone: with an empty slot, and with one
that holds TxDone, it is left alone. Then it returns: a result of 0 goes back to RECEIVE, any other to DISPATCH, and the
take empties the slot. Rests on the spec's own choice D20. -/
def Obligations.ReceiveReturns : Prop :=
  ∀ s, s.pc.op = .receiving →
    (s.pcReady = true ↔ ∃ n, s.notifySlot = some (.rxDone n)) ∧
    (∀ n, s.notifySlot = some (.rxDone n) →
      takeMove .pc s = pcStep s ∧
      pcStep s = .next { s with
        notifySlot := none
        pc := { s.pc with op := .run, point := if n.val = 0 then .receive else .dispatch } }) ∧
    ((s.notifySlot = none ∨ ∃ a, s.notifySlot = some (.txDone a)) →
      takeMove .pc s = .next s ∧ pcStep s = .next s)

/-- R384: on an idle bus PC waits for ever: in a quiescent state no move but ENV pulling the line low leads out. The
moves are the model's (notes/assumptions/2.md). -/
def Obligations.IdleBusKeepsWaiting : Prop :=
  ∀ s m, s.quiescent = true → s.edgePending = none → m ≠ .env true →
    ∃ t, takeMove m s = .next t ∧ t.quiescent = true ∧ t.edgePending = none ∧ t.rx = s.rx ∧ t.tx = s.tx ∧ t.pc = s.pc

/-- R665: the end of a run is the first state, after every action of the environment's script has happened, in which PC
is blocked in `receive()`, the receiver waits with edges armed, no send is in flight, no timer is armed, the slot is
empty and the line is high; and it is quiet: with no edge pending, the moves left in the schedule lead from such a
state to such a state. The script is the outside moves of the schedule (the model's, notes/assumptions/2.md). Rests on
the spec's own choice D67. -/
def Obligations.RunEndsAtFirstQuietState : Prop :=
  (∀ s : State, s.runEnded = true ↔
    (∀ m ∈ s.schedule, (∀ low, m ≠ .env low) ∧ (∀ r, m ≠ .edid r) ∧ m ≠ .host) ∧
    s.pc.point = .receive ∧ s.pc.op = .receiving ∧ s.rx.phase = .awaitStart ∧ s.edgeArmed = true ∧
    s.tx.phase = .idle ∧ s.txTimer = none ∧ s.rxaTimer = none ∧ s.freeTimer = none ∧ s.notifySlot = none ∧
    s.rxDrive = false ∧ s.txDrive = false ∧ s.envLow = false) ∧
  (∀ k s t, endOfRun k s = some t ↔
    ∃ j, j ≤ k ∧ runFor j s = some t ∧ t.runEnded = true ∧
      ∀ i, i < j → ∀ u, runFor i s = some u → u.runEnded = false) ∧
  (∀ s, s.runEnded = true → s.edgePending = none → s.schedule ≠ [] →
    ∃ t, step s = .next t ∧ t.runEnded = true ∧ t.edgePending = none ∧ t.observed = s.observed) ∧
  ∀ s : State, s.observed =
    { la := s.pc.la, pa := s.pc.pa, keyq := s.keyq, logq := s.logq, framesSent := s.framesSent
      framesReceived := s.framesReceived }

/-- R553: when a step stops on a model fault. NOTIFY_FULL: `notify` stores into an empty slot and faults on a full one
(R104), and so does every RX or TX step that would notify. UNWRITTEN_READ: DISPATCH without `rx.len`; a receiver rule
that measures, without `rx.tref`; the ACK decision without `rx.target`; the EOM bit and the ACK sample without `tx.len`
(R623). INDEX_RANGE: DISPATCH of a frame of no byte (R24). Rests on the spec's own choices D10, D24 and on
notes/assumptions/5.md, 9.md and 14.md. -/
def Obligations.ModelFaultsStopTheStep : Prop :=
  (∀ v s,
    (s.notifySlot = none → notify v s = .next { s with notifySlot := some v }) ∧
    (s.notifySlot ≠ none → notify v s = .fault .notifyFull)) ∧
  (∀ s t, s.notifySlot ≠ none →
    (rxStep { s with notifySlot := none } = .next t → t.notifySlot ≠ none → rxStep s = .fault .notifyFull) ∧
    (txStep { s with notifySlot := none } = .next t → t.notifySlot ≠ none → txStep s = .fault .notifyFull)) ∧
  (∀ s, s.halfDuplexBroken = false → s.pc.point = .dispatch → s.pc.op = .run →
    (s.rx.len = none → step s = .fault .unwrittenRead) ∧ (s.rx.len = some 0 → step s = .fault .indexRange)) ∧
  (∀ s,
    (s.rx.tref = none →
      ((s.rx.phase = .startLow ∨ s.rx.phase = .dataLow ∨ s.rx.phase = .eomLow ∨ s.rx.phase = .ackLow) →
        s.edgeIs .rising = true → rxStep s = .fault .unwrittenRead) ∧
      ((s.rx.phase = .startHigh ∨ s.rx.phase = .dataHigh ∨ s.rx.phase = .eomHigh ∨ s.rx.phase = .ackHigh) →
        s.edgeIs .falling = true → rxStep s = .fault .unwrittenRead)) ∧
    ∀ t₀, s.rx.tref = some t₀ → 2050 ≤ (s.clock - t₀).toNat → (s.clock - t₀).toNat ≤ 2750 → s.rx.target = none →
      s.rx.phase = .eomHigh → s.edgeIs .falling = true → rxStep s = .fault .unwrittenRead) ∧
  ∀ s, s.fires s.txTimer = true → s.tx.len = none →
    (s.tx.phase = .eomLow ∨ s.tx.phase = .eomHigh ∨ s.tx.phase = .ackWait) → txStep s = .fault .unwrittenRead

/-- R445, R511, R513: the ACT label executes the list in order, one action at a time, and goes back to RECEIVE when it
is done. A reply's send, once TxDone is taken, goes on with the list whatever the flag. A Reannounce (R430) is a
resolve, an allocation and the announcement, each followed by the next, at ACT throughout and with the rest of the list
kept. Rests on the spec's own choices D20, D51, D59 and on notes/assumptions/5.md. -/
def Obligations.ActExecutesInOrder : Prop :=
  ∀ s, s.pc.point = .act →
    (s.pc.op = .run →
      (s.pc.actions = [] → pcStep s = .next { s with pc := { s.pc with point := .receive } }) ∧
      ∀ rest,
        let left : State := { s with pc := { s.pc with actions := rest } }
        (∀ g, s.pc.actions = .send g :: rest → pcStep s = sendStart .reply g left) ∧
        (∀ k, s.pc.actions = .key k :: rest → pcStep s = .next (emitKey k left)) ∧
        (∀ e, s.pc.actions = .log e :: rest →
          pcStep s = .next { left with logq := s.logq ++ [⟨s.clock, .dispatch, e⟩] }) ∧
        (s.pc.actions = .reannounce :: rest →
          pcStep s = .next { left with
            edidReq := some ⟨Config.edidI2cAddr, s.clock⟩, edidRsp := none
            pc := { left.pc with op := .resolving } })) ∧
    (s.pc.op = .resolving →
      ∃ t, pcStep s = .next t ∧ t.pc = { s.pc with pa := t.pc.pa, allocI := 0, op := .poll }) ∧
    (∀ acked, s.pc.op = .sending .poll → s.notifySlot = some (.txDone acked) →
      ∃ t, pcStep s = .next t ∧
        ((acked = false ∨ s.pc.allocI.val = 3) → t.pc = { s.pc with la := t.pc.la, op := .announce }) ∧
        (acked = true → s.pc.allocI.val < 3 → t.pc = { s.pc with allocI := t.pc.allocI, op := .poll })) ∧
    (s.pc.op = .announce → ∀ la, s.pc.la = some la →
      pcStep s = sendStart .announce
        [la ++ 0xF#4, 0x84, s.pc.pa.extractLsb' 8 8, s.pc.pa.extractLsb' 0 8, Config.deviceType] s) ∧
    ∀ acked, (s.pc.op = .sending .announce ∨ s.pc.op = .sending .reply) → s.notifySlot = some (.txDone acked) →
      pcStep s = .next { s with notifySlot := none, pc := { s.pc with op := .run } }

/-- R585: a key goes into the channel while there is room; a full channel makes PC wait, left alone until there is
room or KEYQ_WAIT has passed, and at the end of the wait the key is kept if there is room now, and otherwise dropped
and logged, cause 42. Rests on the spec's own choices D36, D65. -/
def Obligations.KeyChannel : Prop :=
  (∀ k, (LogInfo.keyDropped k).cause.code = 42#8) ∧
  ∀ k s,
    (s.keyq.length < Config.keyqDepth → emitKey k s = { s with keyq := s.keyq ++ [k] }) ∧
    (Config.keyqDepth ≤ s.keyq.length → emitKey k s = { s with pc := { s.pc with op := .keying k s.clock } }) ∧
    ∀ since, s.pc.op = .keying k since →
      (s.pcReady = true ↔ s.keyq.length < Config.keyqDepth ∨ Config.keyqWait ≤ (s.clock - since).toNat) ∧
      (s.pcReady = false → takeMove .pc s = .next s) ∧ (s.pcReady = true → takeMove .pc s = pcStep s) ∧
      (s.keyq.length < Config.keyqDepth →
        pcStep s = .next { s with pc := { s.pc with op := .run }, keyq := s.keyq ++ [k] }) ∧
      (Config.keyqDepth ≤ s.keyq.length →
        pcStep s = .next { s with
          pc := { s.pc with op := .run }, logq := s.logq ++ [⟨s.clock, .key, .keyDropped k⟩] })

/-- R511, R512: the startup runs RESOLVE, ALLOC and ANNOUNCE in that order before the first receive: each label's
first line, and from the end of each to the next. An allocation ends with an unacknowledged poll or with the fourth
(R515). Rests on the spec's own choices D20, D51. -/
def Obligations.StartupOrder : Prop :=
  ∀ s,
    (s.pc.op = .run →
      (s.pc.point = .boot → pcStep s = .next { s with pc := { s.pc with point := .resolve } }) ∧
      (s.pc.point = .resolve →
        pcStep s = .next { s with
          edidReq := some ⟨Config.edidI2cAddr, s.clock⟩, edidRsp := none, pc := { s.pc with op := .resolving } }) ∧
      (s.pc.point = .alloc → pcStep s = .next { s with pc := { s.pc with allocI := 0, op := .poll } }) ∧
      (s.pc.point = .announce → ∀ la, s.pc.la = some la →
        pcStep s = sendStart .announce
          [la ++ 0xF#4, 0x84, s.pc.pa.extractLsb' 8 8, s.pc.pa.extractLsb' 0 8, Config.deviceType] s)) ∧
    (s.pc.op = .resolving → s.pc.point = .resolve → ∃ t, pcStep s = .next t ∧ t.pc.point = .alloc ∧ t.pc.op = .run) ∧
    (s.pc.op = .poll → ∀ c, Config.candidates[s.pc.allocI] = c → pcStep s = sendStart .poll [c ++ c] s) ∧
    (∀ acked, s.pc.op = .sending .poll → s.pc.point = .alloc → s.notifySlot = some (.txDone acked) →
      ∃ t, pcStep s = .next t ∧ t.notifySlot = none ∧
        ((acked = false ∨ s.pc.allocI.val = 3) → t.pc.point = .announce ∧ t.pc.op = .run) ∧
        (acked = true → s.pc.allocI.val < 3 → t.pc.point = .alloc ∧ t.pc.op = .poll)) ∧
    (∀ acked, s.pc.op = .sending .announce → s.pc.point = .announce → s.notifySlot = some (.txDone acked) →
      pcStep s = .next { s with notifySlot := none, pc := { s.pc with point := .receive, op := .run } })

/-- R515: a poll's result: an unacknowledged candidate becomes the logical address; an acknowledged one leaves it as
it was and the next is polled; after the fourth the exhaustion is logged and 0xF taken. Rests on the spec's own
choices D29, D52. -/
def Obligations.PollResult : Prop :=
  (LogInfo.addressExhausted.cause.code = 30#8) ∧
  ∀ s acked, s.pc.op = .sending .poll → s.notifySlot = some (.txDone acked) →
    ∃ t, pcStep s = .next t ∧ t.notifySlot = none ∧ t.pc.pa = s.pc.pa ∧ t.rx = s.rx ∧ t.tx = s.tx ∧
      (acked = false → t.pc.la = some Config.candidates[s.pc.allocI] ∧ t.pc.allocI = s.pc.allocI ∧ t.logq = s.logq) ∧
      (acked = true → s.pc.allocI.val < 3 →
        t.pc.la = s.pc.la ∧ t.pc.allocI.val = s.pc.allocI.val + 1 ∧ t.pc.op = .poll ∧ t.logq = s.logq) ∧
      (acked = true → s.pc.allocI.val = 3 →
        t.pc.la = some 0xF#4 ∧ t.logq = s.logq ++ [⟨s.clock, .alloc, .addressExhausted⟩])

/-- R516: the result of an allocation is a function of its four poll results, at startup and in a Reannounce. -/
def Obligations.AllocationIsDetermined : Prop :=
  ∀ s a4 a8 aB aF,
    let t := allocRun [a4, a8, aB, aF] (allocStart s)
    t.pc.la =
      some (if a4 = false then 0x4#4 else if a8 = false then 0x8#4 else if aB = false then 0xB#4 else 0xF#4) ∧
    t.pc.op ≠ .poll ∧ t.pc.pa = s.pc.pa ∧
    t.logq = if a4 && a8 && aB && aF then s.logq ++ [⟨s.clock, .alloc, .addressExhausted⟩] else s.logq

/-- R470, R471, R490: PC is blocked in a resolve until the answer is there or EDID_TIMEOUT has passed since the request,
and is left alone before. Then the resolve writes its whole result to `pc.PA`; a transaction that timed out, failed, or
gave fewer bytes than 256 writes 0x0000 and is logged with its cause. That an answer of more than 256 bytes is
EDID_BUS_ERR too is the model's choice (notes/assumptions/8.md). Rests on the spec's own choices D29, D40, D46. -/
def Obligations.ResolveWritesWholeResult : Prop :=
  (LogInfo.edidError .edidTimeoutErr).cause.code = 20#8 ∧ (LogInfo.edidError .edidBusErr).cause.code = 21#8 ∧
  ∀ s, s.pc.op = .resolving →
    (s.pcReady = true ↔
      s.edidRsp ≠ none ∨ ∃ q, s.edidReq = some q ∧ Config.edidTimeout ≤ (s.clock - q.since).toNat) ∧
    (s.pcReady = false → takeMove .pc s = .next s) ∧
    (s.pcReady = true →
      ∃ t, takeMove .pc s = .next t ∧ t.edidReq = none ∧ t.edidRsp = none ∧ t.pc.la = s.pc.la ∧ t.rx = s.rx ∧
        t.tx = s.tx ∧
        (s.edidRsp = none →
          t.pc.pa = 0x0000#16 ∧ t.logq = s.logq ++ [⟨s.clock, .edid, .edidError .edidTimeoutErr⟩]) ∧
        (s.edidRsp = some .busError →
          t.pc.pa = 0x0000#16 ∧ t.logq = s.logq ++ [⟨s.clock, .edid, .edidError .edidBusErr⟩]) ∧
        ∀ e, s.edidRsp = some (.ok e) →
          (e.length ≠ 256 →
            t.pc.pa = 0x0000#16 ∧ t.logq = s.logq ++ [⟨s.clock, .edid, .edidError .edidBusErr⟩]) ∧
          (e.length = 256 →
            (∀ pa, parse e = .address pa → t.pc.pa = pa ∧ t.logq = s.logq) ∧
            ∀ c, parse e = .failed c → t.pc.pa = 0x0000#16 ∧ t.logq = s.logq ++ [⟨s.clock, .edid, .edidError c⟩]))

/-! ## EDID parser -/

/-- R472 to R477: the checks in order, the sums taken as numbers modulo 256, and the scan when all pass. Rests on the
spec's own choice D60. -/
def Obligations.ParseChecksInOrder : Prop :=
  (Cause.edidBaseChecksum.code = 22#8 ∧ Cause.edidHeaderErr.code = 23#8 ∧ Cause.edidExtChecksum.code = 24#8 ∧
    Cause.edidNoCta.code = 25#8) ∧
  ∀ e : List Byte, e.length = 256 →
    let baseOk := ((e.take 128).map BitVec.toNat).sum % 256 = 0
    let extOk := ((e.drop 128).map BitVec.toNat).sum % 256 = 0
    let headerOk := e.take 8 = [0x00, 0xFF, 0xFF, 0xFF, 0xFF, 0xFF, 0xFF, 0x00]
    let ctaOk := e[128]? = some 0x02#8 ∧ e[129]? = some 0x03#8
    (¬ baseOk → parse e = .failed .edidBaseChecksum) ∧
    (baseOk → ¬ extOk → parse e = .failed .edidExtChecksum) ∧
    (baseOk → extOk → ¬ headerOk → parse e = .failed .edidHeaderErr) ∧
    (baseOk → extOk → headerOk → ¬ ctaOk → parse e = .failed .edidNoCta) ∧
    (baseOk → extOk → headerOk → ctaOk → parse e = scan e)

/-- R480, R485, R486, R487: the scan takes the first block of the collection, in scan order, that is a Vendor-Specific
Data Block with the HDMI OUI and at least five payload bytes, and reads its address low byte first; without one it
fails with cause 26. The loop ends by itself, so the model's bound on its turns cuts nothing off, and each block it
meets lies below offset 127 of the extension block. Rests on the spec's own choices D43, D44, D61. -/
def Obligations.ScanTakesFirstHdmiBlock : Prop :=
  Cause.edidNoVsdb.code = 26#8 ∧
  ∀ e : List Byte,
    let x (k : Nat) : Byte := e.getD (128 + k) 0
    let hdmi (i : Nat) : Bool :=
      (x i).extractLsb' 5 3 == 3#3 && decide (5 ≤ ((x i).extractLsb' 0 5).toNat) &&
        x (i + 1) == 0x03#8 && x (i + 2) == 0x0C#8 && x (i + 3) == 0x00#8
    (scan e =
      match (blockChain e 128 4).find? hdmi with
      | some i => .address (x (i + 5) ++ x (i + 4))
      | none => .failed .edidNoVsdb) ∧
    (∀ turns, 128 ≤ turns → scanFrom e turns 4 = scan e) ∧
    ∀ i ∈ blockChain e 128 4, 4 ≤ i ∧ i + ((x i).extractLsb' 0 5).toNat < 127

/-- R492: corrupting any one base-block byte of a passing image makes the parse fail on the base checksum. -/
def Obligations.CorruptBaseByteFailsParse : Prop :=
  ∀ (e : List Byte) pa k v, e.length = 256 → parse e = .address pa → k < 128 → e[k]? ≠ some v →
    parse (e.set k v) = .failed .edidBaseChecksum

/-! ## Line, time, whole machine -/

/-- R100, R101, R566: a driver that pulls or releases makes an edge exactly when the wired-AND level changes; the edge
becomes pending when edges are armed and none is pending, and is lost otherwise; nothing else changes. Every move is
run as what it names (R8, R565): RX, RXA, TX and the bus-free sample take their steps, ENV drives its part of the line
(R99), the EDID agent answers an open request once (R471), HOST removes the head of the key channel (R586), time
passes, and PC takes its step unless it is blocked on a condition that does not hold: then it is left alone (R510). A
step is PC's own while PC is not blocked, so no other agent's step falls inside it (R510, R573), and otherwise the next
move's (R570). Rests on the spec's own choices D11, D20, D22, D36, D40, D62 and on notes/assumptions/2.md, 5.md and
10.md. -/
def Obligations.LineEdgesAreDelivered : Prop :=
  (∀ (s : State) (low : Bool) (t : State), (t = s.driveRx low ∨ t = s.driveTx low ∨ t = s.driveEnv low) →
    (s.line = true ↔ s.rxDrive = false ∧ s.txDrive = false ∧ s.envLow = false) ∧
    (t.line = s.line → t.edgePending = s.edgePending) ∧
    (t.line ≠ s.line →
      t.edgePending =
        if s.edgeArmed = true ∧ s.edgePending = none then
          some ⟨if t.line then .rising else .falling, s.clock⟩
        else s.edgePending)) ∧
  (∀ (s : State) (low : Bool),
    (s.driveRx low = { s with rxDrive := low, edgePending := (s.driveRx low).edgePending }) ∧
    (s.driveTx low = { s with txDrive := low, edgePending := (s.driveTx low).edgePending }) ∧
    (s.driveEnv low = { s with envLow := low, edgePending := (s.driveEnv low).edgePending }) ∧
    (takeMove (.env low) s = .next (s.driveEnv low)) ∧
    (∀ r,
      (s.edidReq ≠ none → s.edidRsp = none → takeMove (.edid r) s = .next { s with edidRsp := some r }) ∧
      ((s.edidReq = none ∨ s.edidRsp ≠ none) → takeMove (.edid r) s = .next s)) ∧
    (∀ k rest, s.keyq = k :: rest → takeMove .host s = .next { s with keyq := rest }) ∧
    (s.keyq = [] → takeMove .host s = .next s)) ∧
  (∀ s us,
    takeMove .rx s = rxStep s ∧ takeMove .rxa s = rxaStep s ∧ takeMove .tx s = txStep s ∧
    takeMove .freeSample s = freeStep s ∧ takeMove (.wait us) s = .next (s.timePasses us) ∧
    (s.pcReady = true → takeMove .pc s = pcStep s) ∧ (s.pcReady = false → takeMove .pc s = .next s)) ∧
  ∀ s, s.halfDuplexBroken = false →
    ((s.pc.op = .run ∨ s.pc.op = .poll ∨ s.pc.op = .announce) → step s = pcStep s) ∧
    (s.pc.op ≠ .run → s.pc.op ≠ .poll → s.pc.op ≠ .announce →
      (∀ m rest, s.schedule = m :: rest → step s = takeMove m { s with schedule := rest }) ∧
      (s.schedule = [] → step s = takeMove (Config.freeMove s.draws) { s with draws := s.draws + 1 }))

/-- R572, R566, R471, R585: both ends of when a step is taken. A timer fires from `max(due, t_arm)` on (R103), read on
a clock that wraps (notes/assumptions/6.md), and a step of RXA, TX or the bus-free sample before that does nothing. A
stretch of time never passes beyond what is owed in it. An armed timer, due already or only later, is never more than
LAT_TIMER overdue, a pending edge never older than LAT_EDGE, a resolve never longer than EDID_TIMEOUT, a key's wait
never longer than KEYQ_WAIT, and no time passes while PC is ready; a receive on a bus with nothing owed waits as long
as asked. Rests on OPEN bounds (D8, D36, D40) and on notes/assumptions/2.md and 6.md. -/
def Obligations.TimePassesWithinLatencies : Prop :=
  (∀ s : State,
    s.fires none = false ∧
    (∀ a : Alarm, s.fires (some a) = true ↔
      (s.clock - (if (a.due - a.armedAt).toNat < 2 ^ 63 then a.due else a.armedAt)).toNat < 2 ^ 63) ∧
    (∀ a : Alarm, s.clock.toNat < 2 ^ 63 → a.due.toNat < 2 ^ 63 → a.armedAt.toNat < 2 ^ 63 →
      (s.fires (some a) = true ↔ max a.due.toNat a.armedAt.toNat ≤ s.clock.toNat)) ∧
    (s.fires s.rxaTimer = false → rxaStep s = .next s) ∧ (s.fires s.txTimer = false → txStep s = .next s) ∧
    (s.fires s.freeTimer = false → freeStep s = .next s)) ∧
  ∀ (s : State) (us : Nat),
    let t := s.timePasses us
    (∀ a : Alarm, (s.txTimer = some a ∨ s.rxaTimer = some a ∨ s.freeTimer = some a) →
      (atOrAfter s.clock a.ready = true → (s.clock - a.ready).toNat ≤ Config.latTimer →
        (t.clock - a.ready).toNat ≤ Config.latTimer) ∧
      (atOrAfter s.clock a.ready = false → atOrAfter t.clock a.ready = true →
        (t.clock - a.ready).toNat ≤ Config.latTimer)) ∧
    (∀ e : Edge, s.edgePending = some e → (s.clock - e.time).toNat ≤ Config.latEdge →
      (t.clock - e.time).toNat ≤ Config.latEdge) ∧
    (∀ q, s.pc.op = .resolving → s.edidReq = some q → (s.clock - q.since).toNat ≤ Config.edidTimeout →
      (t.clock - q.since).toNat ≤ Config.edidTimeout) ∧
    (∀ k since, s.pc.op = .keying k since → (s.clock - since).toNat ≤ Config.keyqWait →
      (t.clock - since).toNat ≤ Config.keyqWait) ∧
    (s.pcReady = true → t.clock = s.clock) ∧
    (s.pc.op = .receiving → s.pcReady = false → s.edgePending = none → s.txTimer = none → s.rxaTimer = none →
      s.freeTimer = none → t.clock = s.clock + BitVec.ofNat 64 us)

/-- R573: every agent step takes no time: only a stretch of time between steps moves the clock, and no further than
asked. Rests on the spec's own choice D11 and on notes/assumptions/2.md. -/
def Obligations.OnlyWaitsMoveTheClock : Prop :=
  ∀ s t, step s = .next t →
    t.clock = s.clock ∨
      (s.pcRuns = false ∧ ∃ us k, s.nextMove.1 = .wait us ∧ k ≤ us ∧ t.clock = s.clock + BitVec.ofNat 64 k)

/-- R106, R590: the log is append-only under every step of the machine. Rests on the spec's own choice D46. -/
def Obligations.LogOnlyGrows : Prop := ∀ s t, step s = .next t → s.logq <+: t.logq

/-- R61, R580: what each agent may write. RX and RXA leave the transmitter, the protocol context and the other drivers
and timers alone, TX leaves the receiver and the protocol context alone, and the outside writes no record at all.
Rests on the spec's own choices D23, D64. -/
def Obligations.AgentsWriteOnlyTheirOwn : Prop :=
  ∀ s t,
    (rxStep s = .next t →
      t.tx = s.tx ∧ t.pc = s.pc ∧ t.txDrive = s.txDrive ∧ t.envLow = s.envLow ∧ t.txTimer = s.txTimer ∧
        t.freeTimer = s.freeTimer ∧ t.keyq = s.keyq) ∧
    (rxaStep s = .next t →
      t.tx = s.tx ∧ t.pc = s.pc ∧ t.txDrive = s.txDrive ∧ t.envLow = s.envLow ∧ t.txTimer = s.txTimer ∧
        t.freeTimer = s.freeTimer ∧ t.keyq = s.keyq ∧ t.logq = s.logq ∧ t.notifySlot = s.notifySlot ∧
        t.edgeArmed = s.edgeArmed) ∧
    (txStep s = .next t →
      t.rx = s.rx ∧ t.pc = s.pc ∧ t.rxDrive = s.rxDrive ∧ t.envLow = s.envLow ∧ t.rxaTimer = s.rxaTimer ∧
        t.freeTimer = s.freeTimer ∧ t.keyq = s.keyq ∧ t.logq = s.logq ∧ t.edgeArmed = s.edgeArmed) ∧
    ∀ low r us, (t = s.driveEnv low ∨ t = s.edidAnswers r ∨ t = s.hostTakes ∨ t = s.timePasses us) →
      t.rx = s.rx ∧ t.tx = s.tx ∧ t.pc = s.pc ∧ t.rxDrive = s.rxDrive ∧ t.txDrive = s.txDrive ∧
        t.edgeArmed = s.edgeArmed ∧ t.notifySlot = s.notifySlot ∧ t.logq = s.logq

/-- R164: the two addresses change only in PC steps taken while no receive and no send is in flight. -/
def Obligations.AddressesChangeBetweenOperations : Prop :=
  ∀ s t, s.disciplined = true → step s = .next t → (t.pc.la ≠ s.pc.la ∨ t.pc.pa ≠ s.pc.pa) →
    (s.pcRuns = true ∨ s.nextMove.1 = .pc) ∧ s.receiveInFlight = false ∧ s.sendInFlight = false ∧
      t.receiveInFlight = false ∧ t.sendInFlight = false

/-- R15 to R17 and premise P_PARAMS of R675: whatever the OPEN parameters are, no UI command is mapped to NO_KEY, UI
command 0x01 is mapped to KEY_UP, OSD_NAME has 1 to 14 bytes, and the key channel holds at least one key. Rests on the
spec's OPEN parameters D27, D35, D36. -/
def Obligations.OpenParametersMeetTheirConstraints : Prop :=
  PremiseParams ∧ Config.keymap 0x01 = some Config.keyUp
end

