-- ==== Sys2Proof/Laws/State.lean ====
section
/-! SUPPORT. One lemma per field for each update of the state, so that no later proof unfolds a record update. -/

namespace Sys2Proof.Machine

variable (s old new : State)

/-! ### log -/

@[simp] theorem State.log_rx (k : LogKind) (i : LogInfo) : (s.log k i).rx = s.rx := rfl
@[simp] theorem State.log_tx (k : LogKind) (i : LogInfo) : (s.log k i).tx = s.tx := rfl
@[simp] theorem State.log_pc (k : LogKind) (i : LogInfo) : (s.log k i).pc = s.pc := rfl
@[simp] theorem State.log_edgeArmed (k : LogKind) (i : LogInfo) : (s.log k i).edgeArmed = s.edgeArmed := rfl
@[simp] theorem State.log_edgePending (k : LogKind) (i : LogInfo) : (s.log k i).edgePending = s.edgePending := rfl
@[simp] theorem State.log_rxDrive (k : LogKind) (i : LogInfo) : (s.log k i).rxDrive = s.rxDrive := rfl
@[simp] theorem State.log_txDrive (k : LogKind) (i : LogInfo) : (s.log k i).txDrive = s.txDrive := rfl
@[simp] theorem State.log_envLow (k : LogKind) (i : LogInfo) : (s.log k i).envLow = s.envLow := rfl
@[simp] theorem State.log_clock (k : LogKind) (i : LogInfo) : (s.log k i).clock = s.clock := rfl
@[simp] theorem State.log_txTimer (k : LogKind) (i : LogInfo) : (s.log k i).txTimer = s.txTimer := rfl
@[simp] theorem State.log_rxaTimer (k : LogKind) (i : LogInfo) : (s.log k i).rxaTimer = s.rxaTimer := rfl
@[simp] theorem State.log_freeTimer (k : LogKind) (i : LogInfo) : (s.log k i).freeTimer = s.freeTimer := rfl
@[simp] theorem State.log_notifySlot (k : LogKind) (i : LogInfo) : (s.log k i).notifySlot = s.notifySlot := rfl
@[simp] theorem State.log_edidReq (k : LogKind) (i : LogInfo) : (s.log k i).edidReq = s.edidReq := rfl
@[simp] theorem State.log_edidRsp (k : LogKind) (i : LogInfo) : (s.log k i).edidRsp = s.edidRsp := rfl
@[simp] theorem State.log_keyq (k : LogKind) (i : LogInfo) : (s.log k i).keyq = s.keyq := rfl
@[simp] theorem State.log_logq (k : LogKind) (i : LogInfo) : (s.log k i).logq = s.logq ++ [⟨s.clock, k, i⟩] := rfl
@[simp] theorem State.log_framesSent (k : LogKind) (i : LogInfo) : (s.log k i).framesSent = s.framesSent := rfl
@[simp] theorem State.log_framesReceived (k : LogKind) (i : LogInfo) : (s.log k i).framesReceived = s.framesReceived := rfl
@[simp] theorem State.log_schedule (k : LogKind) (i : LogInfo) : (s.log k i).schedule = s.schedule := rfl
@[simp] theorem State.log_draws (k : LogKind) (i : LogInfo) : (s.log k i).draws = s.draws := rfl

/-! ### goto -/

@[simp] theorem State.goto_rx (l : Point) : (s.goto l).rx = s.rx := rfl
@[simp] theorem State.goto_tx (l : Point) : (s.goto l).tx = s.tx := rfl
@[simp] theorem State.goto_edgeArmed (l : Point) : (s.goto l).edgeArmed = s.edgeArmed := rfl
@[simp] theorem State.goto_edgePending (l : Point) : (s.goto l).edgePending = s.edgePending := rfl
@[simp] theorem State.goto_rxDrive (l : Point) : (s.goto l).rxDrive = s.rxDrive := rfl
@[simp] theorem State.goto_txDrive (l : Point) : (s.goto l).txDrive = s.txDrive := rfl
@[simp] theorem State.goto_envLow (l : Point) : (s.goto l).envLow = s.envLow := rfl
@[simp] theorem State.goto_clock (l : Point) : (s.goto l).clock = s.clock := rfl
@[simp] theorem State.goto_txTimer (l : Point) : (s.goto l).txTimer = s.txTimer := rfl
@[simp] theorem State.goto_rxaTimer (l : Point) : (s.goto l).rxaTimer = s.rxaTimer := rfl
@[simp] theorem State.goto_freeTimer (l : Point) : (s.goto l).freeTimer = s.freeTimer := rfl
@[simp] theorem State.goto_notifySlot (l : Point) : (s.goto l).notifySlot = s.notifySlot := rfl
@[simp] theorem State.goto_edidReq (l : Point) : (s.goto l).edidReq = s.edidReq := rfl
@[simp] theorem State.goto_edidRsp (l : Point) : (s.goto l).edidRsp = s.edidRsp := rfl
@[simp] theorem State.goto_keyq (l : Point) : (s.goto l).keyq = s.keyq := rfl
@[simp] theorem State.goto_logq (l : Point) : (s.goto l).logq = s.logq := rfl
@[simp] theorem State.goto_framesSent (l : Point) : (s.goto l).framesSent = s.framesSent := rfl
@[simp] theorem State.goto_framesReceived (l : Point) : (s.goto l).framesReceived = s.framesReceived := rfl
@[simp] theorem State.goto_schedule (l : Point) : (s.goto l).schedule = s.schedule := rfl
@[simp] theorem State.goto_draws (l : Point) : (s.goto l).draws = s.draws := rfl

@[simp] theorem State.goto_pc_la (l : Point) : (s.goto l).pc.la = s.pc.la := rfl
@[simp] theorem State.goto_pc_pa (l : Point) : (s.goto l).pc.pa = s.pc.pa := rfl
@[simp] theorem State.goto_pc_freeCount (l : Point) : (s.goto l).pc.freeCount = s.pc.freeCount := rfl
@[simp] theorem State.goto_pc_point (l : Point) : (s.goto l).pc.point = l := rfl
@[simp] theorem State.goto_pc_allocI (l : Point) : (s.goto l).pc.allocI = s.pc.allocI := rfl
@[simp] theorem State.goto_pc_actions (l : Point) : (s.goto l).pc.actions = s.pc.actions := rfl
@[simp] theorem State.goto_pc_op (l : Point) : (s.goto l).pc.op = .run := rfl

/-! ### atOp -/

@[simp] theorem State.atOp_rx (op : PcOp) : (s.atOp op).rx = s.rx := rfl
@[simp] theorem State.atOp_tx (op : PcOp) : (s.atOp op).tx = s.tx := rfl
@[simp] theorem State.atOp_edgeArmed (op : PcOp) : (s.atOp op).edgeArmed = s.edgeArmed := rfl
@[simp] theorem State.atOp_edgePending (op : PcOp) : (s.atOp op).edgePending = s.edgePending := rfl
@[simp] theorem State.atOp_rxDrive (op : PcOp) : (s.atOp op).rxDrive = s.rxDrive := rfl
@[simp] theorem State.atOp_txDrive (op : PcOp) : (s.atOp op).txDrive = s.txDrive := rfl
@[simp] theorem State.atOp_envLow (op : PcOp) : (s.atOp op).envLow = s.envLow := rfl
@[simp] theorem State.atOp_clock (op : PcOp) : (s.atOp op).clock = s.clock := rfl
@[simp] theorem State.atOp_txTimer (op : PcOp) : (s.atOp op).txTimer = s.txTimer := rfl
@[simp] theorem State.atOp_rxaTimer (op : PcOp) : (s.atOp op).rxaTimer = s.rxaTimer := rfl
@[simp] theorem State.atOp_freeTimer (op : PcOp) : (s.atOp op).freeTimer = s.freeTimer := rfl
@[simp] theorem State.atOp_notifySlot (op : PcOp) : (s.atOp op).notifySlot = s.notifySlot := rfl
@[simp] theorem State.atOp_edidReq (op : PcOp) : (s.atOp op).edidReq = s.edidReq := rfl
@[simp] theorem State.atOp_edidRsp (op : PcOp) : (s.atOp op).edidRsp = s.edidRsp := rfl
@[simp] theorem State.atOp_keyq (op : PcOp) : (s.atOp op).keyq = s.keyq := rfl
@[simp] theorem State.atOp_logq (op : PcOp) : (s.atOp op).logq = s.logq := rfl
@[simp] theorem State.atOp_framesSent (op : PcOp) : (s.atOp op).framesSent = s.framesSent := rfl
@[simp] theorem State.atOp_framesReceived (op : PcOp) : (s.atOp op).framesReceived = s.framesReceived := rfl
@[simp] theorem State.atOp_schedule (op : PcOp) : (s.atOp op).schedule = s.schedule := rfl
@[simp] theorem State.atOp_draws (op : PcOp) : (s.atOp op).draws = s.draws := rfl

@[simp] theorem State.atOp_pc_la (op : PcOp) : (s.atOp op).pc.la = s.pc.la := rfl
@[simp] theorem State.atOp_pc_pa (op : PcOp) : (s.atOp op).pc.pa = s.pc.pa := rfl
@[simp] theorem State.atOp_pc_freeCount (op : PcOp) : (s.atOp op).pc.freeCount = s.pc.freeCount := rfl
@[simp] theorem State.atOp_pc_point (op : PcOp) : (s.atOp op).pc.point = s.pc.point := rfl
@[simp] theorem State.atOp_pc_allocI (op : PcOp) : (s.atOp op).pc.allocI = s.pc.allocI := rfl
@[simp] theorem State.atOp_pc_actions (op : PcOp) : (s.atOp op).pc.actions = s.pc.actions := rfl
@[simp] theorem State.atOp_pc_op (op : PcOp) : (s.atOp op).pc.op = op := rfl

/-! ### takeNotification -/

@[simp] theorem State.takeNotification_rx : (s.takeNotification).rx = s.rx := rfl
@[simp] theorem State.takeNotification_tx : (s.takeNotification).tx = s.tx := rfl
@[simp] theorem State.takeNotification_pc : (s.takeNotification).pc = s.pc := rfl
@[simp] theorem State.takeNotification_edgeArmed : (s.takeNotification).edgeArmed = s.edgeArmed := rfl
@[simp] theorem State.takeNotification_edgePending : (s.takeNotification).edgePending = s.edgePending := rfl
@[simp] theorem State.takeNotification_rxDrive : (s.takeNotification).rxDrive = s.rxDrive := rfl
@[simp] theorem State.takeNotification_txDrive : (s.takeNotification).txDrive = s.txDrive := rfl
@[simp] theorem State.takeNotification_envLow : (s.takeNotification).envLow = s.envLow := rfl
@[simp] theorem State.takeNotification_clock : (s.takeNotification).clock = s.clock := rfl
@[simp] theorem State.takeNotification_txTimer : (s.takeNotification).txTimer = s.txTimer := rfl
@[simp] theorem State.takeNotification_rxaTimer : (s.takeNotification).rxaTimer = s.rxaTimer := rfl
@[simp] theorem State.takeNotification_freeTimer : (s.takeNotification).freeTimer = s.freeTimer := rfl
@[simp] theorem State.takeNotification_notifySlot : (s.takeNotification).notifySlot = none := rfl
@[simp] theorem State.takeNotification_edidReq : (s.takeNotification).edidReq = s.edidReq := rfl
@[simp] theorem State.takeNotification_edidRsp : (s.takeNotification).edidRsp = s.edidRsp := rfl
@[simp] theorem State.takeNotification_keyq : (s.takeNotification).keyq = s.keyq := rfl
@[simp] theorem State.takeNotification_logq : (s.takeNotification).logq = s.logq := rfl
@[simp] theorem State.takeNotification_framesSent : (s.takeNotification).framesSent = s.framesSent := rfl
@[simp] theorem State.takeNotification_framesReceived : (s.takeNotification).framesReceived = s.framesReceived := rfl
@[simp] theorem State.takeNotification_schedule : (s.takeNotification).schedule = s.schedule := rfl
@[simp] theorem State.takeNotification_draws : (s.takeNotification).draws = s.draws := rfl

/-! ### hostTakes -/

@[simp] theorem State.hostTakes_rx : (s.hostTakes).rx = s.rx := rfl
@[simp] theorem State.hostTakes_tx : (s.hostTakes).tx = s.tx := rfl
@[simp] theorem State.hostTakes_pc : (s.hostTakes).pc = s.pc := rfl
@[simp] theorem State.hostTakes_edgeArmed : (s.hostTakes).edgeArmed = s.edgeArmed := rfl
@[simp] theorem State.hostTakes_edgePending : (s.hostTakes).edgePending = s.edgePending := rfl
@[simp] theorem State.hostTakes_rxDrive : (s.hostTakes).rxDrive = s.rxDrive := rfl
@[simp] theorem State.hostTakes_txDrive : (s.hostTakes).txDrive = s.txDrive := rfl
@[simp] theorem State.hostTakes_envLow : (s.hostTakes).envLow = s.envLow := rfl
@[simp] theorem State.hostTakes_clock : (s.hostTakes).clock = s.clock := rfl
@[simp] theorem State.hostTakes_txTimer : (s.hostTakes).txTimer = s.txTimer := rfl
@[simp] theorem State.hostTakes_rxaTimer : (s.hostTakes).rxaTimer = s.rxaTimer := rfl
@[simp] theorem State.hostTakes_freeTimer : (s.hostTakes).freeTimer = s.freeTimer := rfl
@[simp] theorem State.hostTakes_notifySlot : (s.hostTakes).notifySlot = s.notifySlot := rfl
@[simp] theorem State.hostTakes_edidReq : (s.hostTakes).edidReq = s.edidReq := rfl
@[simp] theorem State.hostTakes_edidRsp : (s.hostTakes).edidRsp = s.edidRsp := rfl
@[simp] theorem State.hostTakes_keyq : (s.hostTakes).keyq = s.keyq.tail := rfl
@[simp] theorem State.hostTakes_logq : (s.hostTakes).logq = s.logq := rfl
@[simp] theorem State.hostTakes_framesSent : (s.hostTakes).framesSent = s.framesSent := rfl
@[simp] theorem State.hostTakes_framesReceived : (s.hostTakes).framesReceived = s.framesReceived := rfl
@[simp] theorem State.hostTakes_schedule : (s.hostTakes).schedule = s.schedule := rfl
@[simp] theorem State.hostTakes_draws : (s.hostTakes).draws = s.draws := rfl

/-! ### timePasses -/

@[simp] theorem State.timePasses_rx (us : Nat) : (s.timePasses us).rx = s.rx := rfl
@[simp] theorem State.timePasses_tx (us : Nat) : (s.timePasses us).tx = s.tx := rfl
@[simp] theorem State.timePasses_pc (us : Nat) : (s.timePasses us).pc = s.pc := rfl
@[simp] theorem State.timePasses_edgeArmed (us : Nat) : (s.timePasses us).edgeArmed = s.edgeArmed := rfl
@[simp] theorem State.timePasses_edgePending (us : Nat) : (s.timePasses us).edgePending = s.edgePending := rfl
@[simp] theorem State.timePasses_rxDrive (us : Nat) : (s.timePasses us).rxDrive = s.rxDrive := rfl
@[simp] theorem State.timePasses_txDrive (us : Nat) : (s.timePasses us).txDrive = s.txDrive := rfl
@[simp] theorem State.timePasses_envLow (us : Nat) : (s.timePasses us).envLow = s.envLow := rfl
@[simp] theorem State.timePasses_clock (us : Nat) : (s.timePasses us).clock = s.clock + micros (s.timeLimit us) := rfl
@[simp] theorem State.timePasses_txTimer (us : Nat) : (s.timePasses us).txTimer = s.txTimer := rfl
@[simp] theorem State.timePasses_rxaTimer (us : Nat) : (s.timePasses us).rxaTimer = s.rxaTimer := rfl
@[simp] theorem State.timePasses_freeTimer (us : Nat) : (s.timePasses us).freeTimer = s.freeTimer := rfl
@[simp] theorem State.timePasses_notifySlot (us : Nat) : (s.timePasses us).notifySlot = s.notifySlot := rfl
@[simp] theorem State.timePasses_edidReq (us : Nat) : (s.timePasses us).edidReq = s.edidReq := rfl
@[simp] theorem State.timePasses_edidRsp (us : Nat) : (s.timePasses us).edidRsp = s.edidRsp := rfl
@[simp] theorem State.timePasses_keyq (us : Nat) : (s.timePasses us).keyq = s.keyq := rfl
@[simp] theorem State.timePasses_logq (us : Nat) : (s.timePasses us).logq = s.logq := rfl
@[simp] theorem State.timePasses_framesSent (us : Nat) : (s.timePasses us).framesSent = s.framesSent := rfl
@[simp] theorem State.timePasses_framesReceived (us : Nat) : (s.timePasses us).framesReceived = s.framesReceived := rfl
@[simp] theorem State.timePasses_schedule (us : Nat) : (s.timePasses us).schedule = s.schedule := rfl
@[simp] theorem State.timePasses_draws (us : Nat) : (s.timePasses us).draws = s.draws := rfl

/-! ### rxEntry -/

@[simp] theorem rxEntry_rx : (rxEntry s).rx = s.rx := rfl
@[simp] theorem rxEntry_tx : (rxEntry s).tx = s.tx := rfl
@[simp] theorem rxEntry_pc : (rxEntry s).pc = s.pc := rfl
@[simp] theorem rxEntry_edgeArmed : (rxEntry s).edgeArmed = false := rfl
@[simp] theorem rxEntry_edgePending : (rxEntry s).edgePending = none := rfl
@[simp] theorem rxEntry_rxDrive : (rxEntry s).rxDrive = s.rxDrive := rfl
@[simp] theorem rxEntry_txDrive : (rxEntry s).txDrive = s.txDrive := rfl
@[simp] theorem rxEntry_envLow : (rxEntry s).envLow = s.envLow := rfl
@[simp] theorem rxEntry_clock : (rxEntry s).clock = s.clock := rfl
@[simp] theorem rxEntry_txTimer : (rxEntry s).txTimer = s.txTimer := rfl
@[simp] theorem rxEntry_rxaTimer : (rxEntry s).rxaTimer = s.rxaTimer := rfl
@[simp] theorem rxEntry_freeTimer : (rxEntry s).freeTimer = s.freeTimer := rfl
@[simp] theorem rxEntry_notifySlot : (rxEntry s).notifySlot = s.notifySlot := rfl
@[simp] theorem rxEntry_edidReq : (rxEntry s).edidReq = s.edidReq := rfl
@[simp] theorem rxEntry_edidRsp : (rxEntry s).edidRsp = s.edidRsp := rfl
@[simp] theorem rxEntry_keyq : (rxEntry s).keyq = s.keyq := rfl
@[simp] theorem rxEntry_logq : (rxEntry s).logq = s.logq := rfl
@[simp] theorem rxEntry_framesSent : (rxEntry s).framesSent = s.framesSent := rfl
@[simp] theorem rxEntry_framesReceived : (rxEntry s).framesReceived = s.framesReceived := rfl
@[simp] theorem rxEntry_schedule : (rxEntry s).schedule = s.schedule := rfl
@[simp] theorem rxEntry_draws : (rxEntry s).draws = s.draws := rfl

/-! ### allocStart -/

@[simp] theorem allocStart_rx : (allocStart s).rx = s.rx := rfl
@[simp] theorem allocStart_tx : (allocStart s).tx = s.tx := rfl
@[simp] theorem allocStart_edgeArmed : (allocStart s).edgeArmed = s.edgeArmed := rfl
@[simp] theorem allocStart_edgePending : (allocStart s).edgePending = s.edgePending := rfl
@[simp] theorem allocStart_rxDrive : (allocStart s).rxDrive = s.rxDrive := rfl
@[simp] theorem allocStart_txDrive : (allocStart s).txDrive = s.txDrive := rfl
@[simp] theorem allocStart_envLow : (allocStart s).envLow = s.envLow := rfl
@[simp] theorem allocStart_clock : (allocStart s).clock = s.clock := rfl
@[simp] theorem allocStart_txTimer : (allocStart s).txTimer = s.txTimer := rfl
@[simp] theorem allocStart_rxaTimer : (allocStart s).rxaTimer = s.rxaTimer := rfl
@[simp] theorem allocStart_freeTimer : (allocStart s).freeTimer = s.freeTimer := rfl
@[simp] theorem allocStart_notifySlot : (allocStart s).notifySlot = s.notifySlot := rfl
@[simp] theorem allocStart_edidReq : (allocStart s).edidReq = s.edidReq := rfl
@[simp] theorem allocStart_edidRsp : (allocStart s).edidRsp = s.edidRsp := rfl
@[simp] theorem allocStart_keyq : (allocStart s).keyq = s.keyq := rfl
@[simp] theorem allocStart_logq : (allocStart s).logq = s.logq := rfl
@[simp] theorem allocStart_framesSent : (allocStart s).framesSent = s.framesSent := rfl
@[simp] theorem allocStart_framesReceived : (allocStart s).framesReceived = s.framesReceived := rfl
@[simp] theorem allocStart_schedule : (allocStart s).schedule = s.schedule := rfl
@[simp] theorem allocStart_draws : (allocStart s).draws = s.draws := rfl

@[simp] theorem allocStart_pc_la : (allocStart s).pc.la = s.pc.la := rfl
@[simp] theorem allocStart_pc_pa : (allocStart s).pc.pa = s.pc.pa := rfl
@[simp] theorem allocStart_pc_freeCount : (allocStart s).pc.freeCount = s.pc.freeCount := rfl
@[simp] theorem allocStart_pc_point : (allocStart s).pc.point = s.pc.point := rfl
@[simp] theorem allocStart_pc_allocI : (allocStart s).pc.allocI = 0 := rfl
@[simp] theorem allocStart_pc_actions : (allocStart s).pc.actions = s.pc.actions := rfl
@[simp] theorem allocStart_pc_op : (allocStart s).pc.op = .poll := rfl

/-! ### resolveStart -/

@[simp] theorem resolveStart_rx : (resolveStart s).rx = s.rx := rfl
@[simp] theorem resolveStart_tx : (resolveStart s).tx = s.tx := rfl
@[simp] theorem resolveStart_edgeArmed : (resolveStart s).edgeArmed = s.edgeArmed := rfl
@[simp] theorem resolveStart_edgePending : (resolveStart s).edgePending = s.edgePending := rfl
@[simp] theorem resolveStart_rxDrive : (resolveStart s).rxDrive = s.rxDrive := rfl
@[simp] theorem resolveStart_txDrive : (resolveStart s).txDrive = s.txDrive := rfl
@[simp] theorem resolveStart_envLow : (resolveStart s).envLow = s.envLow := rfl
@[simp] theorem resolveStart_clock : (resolveStart s).clock = s.clock := rfl
@[simp] theorem resolveStart_txTimer : (resolveStart s).txTimer = s.txTimer := rfl
@[simp] theorem resolveStart_rxaTimer : (resolveStart s).rxaTimer = s.rxaTimer := rfl
@[simp] theorem resolveStart_freeTimer : (resolveStart s).freeTimer = s.freeTimer := rfl
@[simp] theorem resolveStart_notifySlot : (resolveStart s).notifySlot = s.notifySlot := rfl
@[simp] theorem resolveStart_edidReq : (resolveStart s).edidReq = some ⟨Config.edidI2cAddr, s.clock⟩ := rfl
@[simp] theorem resolveStart_edidRsp : (resolveStart s).edidRsp = none := rfl
@[simp] theorem resolveStart_keyq : (resolveStart s).keyq = s.keyq := rfl
@[simp] theorem resolveStart_logq : (resolveStart s).logq = s.logq := rfl
@[simp] theorem resolveStart_framesSent : (resolveStart s).framesSent = s.framesSent := rfl
@[simp] theorem resolveStart_framesReceived : (resolveStart s).framesReceived = s.framesReceived := rfl
@[simp] theorem resolveStart_schedule : (resolveStart s).schedule = s.schedule := rfl
@[simp] theorem resolveStart_draws : (resolveStart s).draws = s.draws := rfl

@[simp] theorem resolveStart_pc_la : (resolveStart s).pc.la = s.pc.la := rfl
@[simp] theorem resolveStart_pc_pa : (resolveStart s).pc.pa = s.pc.pa := rfl
@[simp] theorem resolveStart_pc_freeCount : (resolveStart s).pc.freeCount = s.pc.freeCount := rfl
@[simp] theorem resolveStart_pc_point : (resolveStart s).pc.point = s.pc.point := rfl
@[simp] theorem resolveStart_pc_allocI : (resolveStart s).pc.allocI = s.pc.allocI := rfl
@[simp] theorem resolveStart_pc_actions : (resolveStart s).pc.actions = s.pc.actions := rfl
@[simp] theorem resolveStart_pc_op : (resolveStart s).pc.op = .resolving := rfl

/-! ### freeSample -/

@[simp] theorem freeSample_rx (a : Alarm) : (freeSample a s).rx = s.rx := rfl
@[simp] theorem freeSample_tx (a : Alarm) : (freeSample a s).tx = s.tx := rfl
@[simp] theorem freeSample_edgeArmed (a : Alarm) : (freeSample a s).edgeArmed = s.edgeArmed := rfl
@[simp] theorem freeSample_edgePending (a : Alarm) : (freeSample a s).edgePending = s.edgePending := rfl
@[simp] theorem freeSample_rxDrive (a : Alarm) : (freeSample a s).rxDrive = s.rxDrive := rfl
@[simp] theorem freeSample_txDrive (a : Alarm) : (freeSample a s).txDrive = s.txDrive := rfl
@[simp] theorem freeSample_envLow (a : Alarm) : (freeSample a s).envLow = s.envLow := rfl
@[simp] theorem freeSample_clock (a : Alarm) : (freeSample a s).clock = s.clock := rfl
@[simp] theorem freeSample_txTimer (a : Alarm) : (freeSample a s).txTimer = s.txTimer := rfl
@[simp] theorem freeSample_rxaTimer (a : Alarm) : (freeSample a s).rxaTimer = s.rxaTimer := rfl
@[simp] theorem freeSample_notifySlot (a : Alarm) : (freeSample a s).notifySlot = s.notifySlot := rfl
@[simp] theorem freeSample_edidReq (a : Alarm) : (freeSample a s).edidReq = s.edidReq := rfl
@[simp] theorem freeSample_edidRsp (a : Alarm) : (freeSample a s).edidRsp = s.edidRsp := rfl
@[simp] theorem freeSample_keyq (a : Alarm) : (freeSample a s).keyq = s.keyq := rfl
@[simp] theorem freeSample_logq (a : Alarm) : (freeSample a s).logq = s.logq := rfl
@[simp] theorem freeSample_framesSent (a : Alarm) : (freeSample a s).framesSent = s.framesSent := rfl
@[simp] theorem freeSample_framesReceived (a : Alarm) : (freeSample a s).framesReceived = s.framesReceived := rfl
@[simp] theorem freeSample_schedule (a : Alarm) : (freeSample a s).schedule = s.schedule := rfl
@[simp] theorem freeSample_draws (a : Alarm) : (freeSample a s).draws = s.draws := rfl

@[simp] theorem freeSample_pc_la (a : Alarm) : (freeSample a s).pc.la = s.pc.la := rfl
@[simp] theorem freeSample_pc_pa (a : Alarm) : (freeSample a s).pc.pa = s.pc.pa := rfl
@[simp] theorem freeSample_pc_freeCount (a : Alarm) : (freeSample a s).pc.freeCount = nextFreeCount s.pc.freeCount s.line := rfl
@[simp] theorem freeSample_pc_point (a : Alarm) : (freeSample a s).pc.point = s.pc.point := rfl
@[simp] theorem freeSample_pc_allocI (a : Alarm) : (freeSample a s).pc.allocI = s.pc.allocI := rfl
@[simp] theorem freeSample_pc_actions (a : Alarm) : (freeSample a s).pc.actions = s.pc.actions := rfl
@[simp] theorem freeSample_pc_op (a : Alarm) : (freeSample a s).pc.op = s.pc.op := rfl

/-! ### withFrame -/

@[simp] theorem State.withFrame_tx (f : List Byte) : (s.withFrame f).tx = s.tx := rfl
@[simp] theorem State.withFrame_edgeArmed (f : List Byte) : (s.withFrame f).edgeArmed = false := rfl
@[simp] theorem State.withFrame_edgePending (f : List Byte) : (s.withFrame f).edgePending = s.edgePending := rfl
@[simp] theorem State.withFrame_rxDrive (f : List Byte) : (s.withFrame f).rxDrive = s.rxDrive := rfl
@[simp] theorem State.withFrame_txDrive (f : List Byte) : (s.withFrame f).txDrive = s.txDrive := rfl
@[simp] theorem State.withFrame_envLow (f : List Byte) : (s.withFrame f).envLow = s.envLow := rfl
@[simp] theorem State.withFrame_clock (f : List Byte) : (s.withFrame f).clock = s.clock := rfl
@[simp] theorem State.withFrame_txTimer (f : List Byte) : (s.withFrame f).txTimer = s.txTimer := rfl
@[simp] theorem State.withFrame_rxaTimer (f : List Byte) : (s.withFrame f).rxaTimer = s.rxaTimer := rfl
@[simp] theorem State.withFrame_freeTimer (f : List Byte) : (s.withFrame f).freeTimer = s.freeTimer := rfl
@[simp] theorem State.withFrame_notifySlot (f : List Byte) : (s.withFrame f).notifySlot = none := rfl
@[simp] theorem State.withFrame_edidReq (f : List Byte) : (s.withFrame f).edidReq = s.edidReq := rfl
@[simp] theorem State.withFrame_edidRsp (f : List Byte) : (s.withFrame f).edidRsp = s.edidRsp := rfl
@[simp] theorem State.withFrame_keyq (f : List Byte) : (s.withFrame f).keyq = s.keyq := rfl
@[simp] theorem State.withFrame_logq (f : List Byte) : (s.withFrame f).logq = s.logq := rfl
@[simp] theorem State.withFrame_framesSent (f : List Byte) : (s.withFrame f).framesSent = s.framesSent := rfl
@[simp] theorem State.withFrame_framesReceived (f : List Byte) : (s.withFrame f).framesReceived = s.framesReceived := rfl
@[simp] theorem State.withFrame_schedule (f : List Byte) : (s.withFrame f).schedule = s.schedule := rfl
@[simp] theorem State.withFrame_draws (f : List Byte) : (s.withFrame f).draws = s.draws := rfl

/-! ### An edge changes the pending edge only (R566) -/

@[simp] theorem State.edgeHappens_rx (p : Polarity) : (s.edgeHappens p).rx = s.rx := by
  unfold State.edgeHappens; split <;> rfl
@[simp] theorem State.edgeHappens_tx (p : Polarity) : (s.edgeHappens p).tx = s.tx := by
  unfold State.edgeHappens; split <;> rfl
@[simp] theorem State.edgeHappens_pc (p : Polarity) : (s.edgeHappens p).pc = s.pc := by
  unfold State.edgeHappens; split <;> rfl
@[simp] theorem State.edgeHappens_edgeArmed (p : Polarity) : (s.edgeHappens p).edgeArmed = s.edgeArmed := by
  unfold State.edgeHappens; split <;> rfl
@[simp] theorem State.edgeHappens_rxDrive (p : Polarity) : (s.edgeHappens p).rxDrive = s.rxDrive := by
  unfold State.edgeHappens; split <;> rfl
@[simp] theorem State.edgeHappens_txDrive (p : Polarity) : (s.edgeHappens p).txDrive = s.txDrive := by
  unfold State.edgeHappens; split <;> rfl
@[simp] theorem State.edgeHappens_envLow (p : Polarity) : (s.edgeHappens p).envLow = s.envLow := by
  unfold State.edgeHappens; split <;> rfl
@[simp] theorem State.edgeHappens_clock (p : Polarity) : (s.edgeHappens p).clock = s.clock := by
  unfold State.edgeHappens; split <;> rfl
@[simp] theorem State.edgeHappens_txTimer (p : Polarity) : (s.edgeHappens p).txTimer = s.txTimer := by
  unfold State.edgeHappens; split <;> rfl
@[simp] theorem State.edgeHappens_rxaTimer (p : Polarity) : (s.edgeHappens p).rxaTimer = s.rxaTimer := by
  unfold State.edgeHappens; split <;> rfl
@[simp] theorem State.edgeHappens_freeTimer (p : Polarity) : (s.edgeHappens p).freeTimer = s.freeTimer := by
  unfold State.edgeHappens; split <;> rfl
@[simp] theorem State.edgeHappens_notifySlot (p : Polarity) : (s.edgeHappens p).notifySlot = s.notifySlot := by
  unfold State.edgeHappens; split <;> rfl
@[simp] theorem State.edgeHappens_edidReq (p : Polarity) : (s.edgeHappens p).edidReq = s.edidReq := by
  unfold State.edgeHappens; split <;> rfl
@[simp] theorem State.edgeHappens_edidRsp (p : Polarity) : (s.edgeHappens p).edidRsp = s.edidRsp := by
  unfold State.edgeHappens; split <;> rfl
@[simp] theorem State.edgeHappens_keyq (p : Polarity) : (s.edgeHappens p).keyq = s.keyq := by
  unfold State.edgeHappens; split <;> rfl
@[simp] theorem State.edgeHappens_logq (p : Polarity) : (s.edgeHappens p).logq = s.logq := by
  unfold State.edgeHappens; split <;> rfl
@[simp] theorem State.edgeHappens_framesSent (p : Polarity) : (s.edgeHappens p).framesSent = s.framesSent := by
  unfold State.edgeHappens; split <;> rfl
@[simp] theorem State.edgeHappens_framesReceived (p : Polarity) : (s.edgeHappens p).framesReceived = s.framesReceived := by
  unfold State.edgeHappens; split <;> rfl
@[simp] theorem State.edgeHappens_schedule (p : Polarity) : (s.edgeHappens p).schedule = s.schedule := by
  unfold State.edgeHappens; split <;> rfl
@[simp] theorem State.edgeHappens_draws (p : Polarity) : (s.edgeHappens p).draws = s.draws := by
  unfold State.edgeHappens; split <;> rfl

/-! ### A change of drivers changes nothing but the drivers and the pending edge (R101) -/

@[simp] theorem lineChange_rx : (lineChange old new).rx = new.rx := by
  unfold lineChange; split <;> simp
@[simp] theorem lineChange_tx : (lineChange old new).tx = new.tx := by
  unfold lineChange; split <;> simp
@[simp] theorem lineChange_pc : (lineChange old new).pc = new.pc := by
  unfold lineChange; split <;> simp
@[simp] theorem lineChange_edgeArmed : (lineChange old new).edgeArmed = new.edgeArmed := by
  unfold lineChange; split <;> simp
@[simp] theorem lineChange_rxDrive : (lineChange old new).rxDrive = new.rxDrive := by
  unfold lineChange; split <;> simp
@[simp] theorem lineChange_txDrive : (lineChange old new).txDrive = new.txDrive := by
  unfold lineChange; split <;> simp
@[simp] theorem lineChange_envLow : (lineChange old new).envLow = new.envLow := by
  unfold lineChange; split <;> simp
@[simp] theorem lineChange_clock : (lineChange old new).clock = new.clock := by
  unfold lineChange; split <;> simp
@[simp] theorem lineChange_txTimer : (lineChange old new).txTimer = new.txTimer := by
  unfold lineChange; split <;> simp
@[simp] theorem lineChange_rxaTimer : (lineChange old new).rxaTimer = new.rxaTimer := by
  unfold lineChange; split <;> simp
@[simp] theorem lineChange_freeTimer : (lineChange old new).freeTimer = new.freeTimer := by
  unfold lineChange; split <;> simp
@[simp] theorem lineChange_notifySlot : (lineChange old new).notifySlot = new.notifySlot := by
  unfold lineChange; split <;> simp
@[simp] theorem lineChange_edidReq : (lineChange old new).edidReq = new.edidReq := by
  unfold lineChange; split <;> simp
@[simp] theorem lineChange_edidRsp : (lineChange old new).edidRsp = new.edidRsp := by
  unfold lineChange; split <;> simp
@[simp] theorem lineChange_keyq : (lineChange old new).keyq = new.keyq := by
  unfold lineChange; split <;> simp
@[simp] theorem lineChange_logq : (lineChange old new).logq = new.logq := by
  unfold lineChange; split <;> simp
@[simp] theorem lineChange_framesSent : (lineChange old new).framesSent = new.framesSent := by
  unfold lineChange; split <;> simp
@[simp] theorem lineChange_framesReceived : (lineChange old new).framesReceived = new.framesReceived := by
  unfold lineChange; split <;> simp
@[simp] theorem lineChange_schedule : (lineChange old new).schedule = new.schedule := by
  unfold lineChange; split <;> simp
@[simp] theorem lineChange_draws : (lineChange old new).draws = new.draws := by
  unfold lineChange; split <;> simp

/-! ### driveRx -/

@[simp] theorem State.driveRx_rx (low : Bool) : (s.driveRx low).rx = s.rx := by
  simp [State.driveRx]
@[simp] theorem State.driveRx_tx (low : Bool) : (s.driveRx low).tx = s.tx := by
  simp [State.driveRx]
@[simp] theorem State.driveRx_pc (low : Bool) : (s.driveRx low).pc = s.pc := by
  simp [State.driveRx]
@[simp] theorem State.driveRx_edgeArmed (low : Bool) : (s.driveRx low).edgeArmed = s.edgeArmed := by
  simp [State.driveRx]
@[simp] theorem State.driveRx_rxDrive (low : Bool) : (s.driveRx low).rxDrive = low := by
  simp [State.driveRx]
@[simp] theorem State.driveRx_txDrive (low : Bool) : (s.driveRx low).txDrive = s.txDrive := by
  simp [State.driveRx]
@[simp] theorem State.driveRx_envLow (low : Bool) : (s.driveRx low).envLow = s.envLow := by
  simp [State.driveRx]
@[simp] theorem State.driveRx_clock (low : Bool) : (s.driveRx low).clock = s.clock := by
  simp [State.driveRx]
@[simp] theorem State.driveRx_txTimer (low : Bool) : (s.driveRx low).txTimer = s.txTimer := by
  simp [State.driveRx]
@[simp] theorem State.driveRx_rxaTimer (low : Bool) : (s.driveRx low).rxaTimer = s.rxaTimer := by
  simp [State.driveRx]
@[simp] theorem State.driveRx_freeTimer (low : Bool) : (s.driveRx low).freeTimer = s.freeTimer := by
  simp [State.driveRx]
@[simp] theorem State.driveRx_notifySlot (low : Bool) : (s.driveRx low).notifySlot = s.notifySlot := by
  simp [State.driveRx]
@[simp] theorem State.driveRx_edidReq (low : Bool) : (s.driveRx low).edidReq = s.edidReq := by
  simp [State.driveRx]
@[simp] theorem State.driveRx_edidRsp (low : Bool) : (s.driveRx low).edidRsp = s.edidRsp := by
  simp [State.driveRx]
@[simp] theorem State.driveRx_keyq (low : Bool) : (s.driveRx low).keyq = s.keyq := by
  simp [State.driveRx]
@[simp] theorem State.driveRx_logq (low : Bool) : (s.driveRx low).logq = s.logq := by
  simp [State.driveRx]
@[simp] theorem State.driveRx_framesSent (low : Bool) : (s.driveRx low).framesSent = s.framesSent := by
  simp [State.driveRx]
@[simp] theorem State.driveRx_framesReceived (low : Bool) : (s.driveRx low).framesReceived = s.framesReceived := by
  simp [State.driveRx]
@[simp] theorem State.driveRx_schedule (low : Bool) : (s.driveRx low).schedule = s.schedule := by
  simp [State.driveRx]
@[simp] theorem State.driveRx_draws (low : Bool) : (s.driveRx low).draws = s.draws := by
  simp [State.driveRx]

/-! ### driveTx -/

@[simp] theorem State.driveTx_rx (low : Bool) : (s.driveTx low).rx = s.rx := by
  simp [State.driveTx]
@[simp] theorem State.driveTx_tx (low : Bool) : (s.driveTx low).tx = s.tx := by
  simp [State.driveTx]
@[simp] theorem State.driveTx_pc (low : Bool) : (s.driveTx low).pc = s.pc := by
  simp [State.driveTx]
@[simp] theorem State.driveTx_edgeArmed (low : Bool) : (s.driveTx low).edgeArmed = s.edgeArmed := by
  simp [State.driveTx]
@[simp] theorem State.driveTx_rxDrive (low : Bool) : (s.driveTx low).rxDrive = s.rxDrive := by
  simp [State.driveTx]
@[simp] theorem State.driveTx_txDrive (low : Bool) : (s.driveTx low).txDrive = low := by
  simp [State.driveTx]
@[simp] theorem State.driveTx_envLow (low : Bool) : (s.driveTx low).envLow = s.envLow := by
  simp [State.driveTx]
@[simp] theorem State.driveTx_clock (low : Bool) : (s.driveTx low).clock = s.clock := by
  simp [State.driveTx]
@[simp] theorem State.driveTx_txTimer (low : Bool) : (s.driveTx low).txTimer = s.txTimer := by
  simp [State.driveTx]
@[simp] theorem State.driveTx_rxaTimer (low : Bool) : (s.driveTx low).rxaTimer = s.rxaTimer := by
  simp [State.driveTx]
@[simp] theorem State.driveTx_freeTimer (low : Bool) : (s.driveTx low).freeTimer = s.freeTimer := by
  simp [State.driveTx]
@[simp] theorem State.driveTx_notifySlot (low : Bool) : (s.driveTx low).notifySlot = s.notifySlot := by
  simp [State.driveTx]
@[simp] theorem State.driveTx_edidReq (low : Bool) : (s.driveTx low).edidReq = s.edidReq := by
  simp [State.driveTx]
@[simp] theorem State.driveTx_edidRsp (low : Bool) : (s.driveTx low).edidRsp = s.edidRsp := by
  simp [State.driveTx]
@[simp] theorem State.driveTx_keyq (low : Bool) : (s.driveTx low).keyq = s.keyq := by
  simp [State.driveTx]
@[simp] theorem State.driveTx_logq (low : Bool) : (s.driveTx low).logq = s.logq := by
  simp [State.driveTx]
@[simp] theorem State.driveTx_framesSent (low : Bool) : (s.driveTx low).framesSent = s.framesSent := by
  simp [State.driveTx]
@[simp] theorem State.driveTx_framesReceived (low : Bool) : (s.driveTx low).framesReceived = s.framesReceived := by
  simp [State.driveTx]
@[simp] theorem State.driveTx_schedule (low : Bool) : (s.driveTx low).schedule = s.schedule := by
  simp [State.driveTx]
@[simp] theorem State.driveTx_draws (low : Bool) : (s.driveTx low).draws = s.draws := by
  simp [State.driveTx]

/-! ### driveEnv -/

@[simp] theorem State.driveEnv_rx (low : Bool) : (s.driveEnv low).rx = s.rx := by
  simp [State.driveEnv]
@[simp] theorem State.driveEnv_tx (low : Bool) : (s.driveEnv low).tx = s.tx := by
  simp [State.driveEnv]
@[simp] theorem State.driveEnv_pc (low : Bool) : (s.driveEnv low).pc = s.pc := by
  simp [State.driveEnv]
@[simp] theorem State.driveEnv_edgeArmed (low : Bool) : (s.driveEnv low).edgeArmed = s.edgeArmed := by
  simp [State.driveEnv]
@[simp] theorem State.driveEnv_rxDrive (low : Bool) : (s.driveEnv low).rxDrive = s.rxDrive := by
  simp [State.driveEnv]
@[simp] theorem State.driveEnv_txDrive (low : Bool) : (s.driveEnv low).txDrive = s.txDrive := by
  simp [State.driveEnv]
@[simp] theorem State.driveEnv_envLow (low : Bool) : (s.driveEnv low).envLow = low := by
  simp [State.driveEnv]
@[simp] theorem State.driveEnv_clock (low : Bool) : (s.driveEnv low).clock = s.clock := by
  simp [State.driveEnv]
@[simp] theorem State.driveEnv_txTimer (low : Bool) : (s.driveEnv low).txTimer = s.txTimer := by
  simp [State.driveEnv]
@[simp] theorem State.driveEnv_rxaTimer (low : Bool) : (s.driveEnv low).rxaTimer = s.rxaTimer := by
  simp [State.driveEnv]
@[simp] theorem State.driveEnv_freeTimer (low : Bool) : (s.driveEnv low).freeTimer = s.freeTimer := by
  simp [State.driveEnv]
@[simp] theorem State.driveEnv_notifySlot (low : Bool) : (s.driveEnv low).notifySlot = s.notifySlot := by
  simp [State.driveEnv]
@[simp] theorem State.driveEnv_edidReq (low : Bool) : (s.driveEnv low).edidReq = s.edidReq := by
  simp [State.driveEnv]
@[simp] theorem State.driveEnv_edidRsp (low : Bool) : (s.driveEnv low).edidRsp = s.edidRsp := by
  simp [State.driveEnv]
@[simp] theorem State.driveEnv_keyq (low : Bool) : (s.driveEnv low).keyq = s.keyq := by
  simp [State.driveEnv]
@[simp] theorem State.driveEnv_logq (low : Bool) : (s.driveEnv low).logq = s.logq := by
  simp [State.driveEnv]
@[simp] theorem State.driveEnv_framesSent (low : Bool) : (s.driveEnv low).framesSent = s.framesSent := by
  simp [State.driveEnv]
@[simp] theorem State.driveEnv_framesReceived (low : Bool) : (s.driveEnv low).framesReceived = s.framesReceived := by
  simp [State.driveEnv]
@[simp] theorem State.driveEnv_schedule (low : Bool) : (s.driveEnv low).schedule = s.schedule := by
  simp [State.driveEnv]
@[simp] theorem State.driveEnv_draws (low : Bool) : (s.driveEnv low).draws = s.draws := by
  simp [State.driveEnv]

/-! ### The line while nobody listens (R566) -/

/-- With edges disarmed a change of drivers leaves no edge pending that was not. -/
theorem lineChange_edgePending_of_disarmed (h : new.edgeArmed = false) :
    (lineChange old new).edgePending = new.edgePending := by
  unfold lineChange State.edgeHappens
  split
  · rfl
  · simp [h]

/-- A change of drivers that leaves the level as it is makes no edge (R101). -/
theorem lineChange_edgePending_of_same (h : old.line = new.line) :
    (lineChange old new).edgePending = new.edgePending := by
  simp [lineChange, h]

end Sys2Proof.Machine
end

