-- ==== Sys2Proof/Laws/Memory.lean ====
section
/-! SUPPORT. The buffers: a read after a write, a write leaves every other byte alone, and every operation keeps the
canonical form, so that equal buffers are equal data. -/

namespace Sys2Proof.Machine

/-- The empty buffer, every byte 0x00, is canonical: so are both buffers at reset. -/
@[simp] theorem Memory.wf_nil : Memory.wf [] = true := rfl

@[simp] theorem Memory.get_nil (a : Nat) : Memory.get [] a = 0#8 := rfl

@[simp] theorem Memory.wfFrom_cons (lo b : Nat) (v : Byte) (rest : Memory) :
    Memory.wfFrom lo ((b, v) :: rest) = true ↔
      lo ≤ b ∧ b < 16 ∧ v ≠ 0#8 ∧ Memory.wfFrom (b + 1) rest = true := by
  simp only [Memory.wfFrom, Bool.and_eq_true, decide_eq_true_eq, bne_iff_ne, and_assoc]
  exact Iff.rfl

theorem Memory.wfFrom_mono {lo lo' : Nat} {m : Memory} (h : Memory.wfFrom lo m = true) (hle : lo' ≤ lo) :
    Memory.wfFrom lo' m = true := by
  cases m with
  | nil => rfl
  | cons c rest =>
    obtain ⟨b, v⟩ := c
    rw [Memory.wfFrom_cons] at h ⊢
    exact ⟨hle.trans h.1, h.2⟩

/-- Below its first address a buffer reads 0x00. -/
theorem Memory.get_of_lt {lo a : Nat} {m : Memory} (h : Memory.wfFrom lo m = true) (ha : a < lo) : m.get a = 0#8 := by
  induction m generalizing lo with
  | nil => rfl
  | cons c rest ih =>
    obtain ⟨b, v⟩ := c
    rw [Memory.wfFrom_cons] at h
    simp only [Memory.get, if_neg (show a ≠ b by omega)]
    exact ih h.2.2.2 (by omega)

theorem Memory.get_put_from {lo a : Nat} {m : Memory} (h : Memory.wfFrom lo m = true) (x : Nat) (v : Byte) :
    (m.put a v).get x = if x = a then v else m.get x := by
  induction m generalizing lo with
  | nil =>
    by_cases hv : v = 0#8 <;> by_cases hx : x = a <;> simp [Memory.put, Memory.get, hv, hx]
  | cons c rest ih =>
    obtain ⟨b, w⟩ := c
    rw [Memory.wfFrom_cons] at h
    have below : ∀ y, y ≤ b → Memory.get rest y = 0#8 := fun y hy => Memory.get_of_lt h.2.2.2 (by omega)
    simp only [Memory.put]
    split
    · split
      · rename_i hab hv
        by_cases hx : x = a
        · simp [Memory.get, hx, hv, show a ≠ b by omega, below a (by omega)]
        · simp [hx]
      · by_cases hx : x = a <;> simp [Memory.get, hx]
    · split
      · rename_i hab
        subst hab
        split
        · rename_i hv
          by_cases hx : x = a
          · simp [hx, hv, below a (by omega)]
          · simp [Memory.get, hx]
        · by_cases hx : x = a <;> simp [Memory.get, hx]
      · rename_i hab hne
        by_cases hx : x = b
        · simp [Memory.get, hx, show ¬ b = a by omega]
        · simp [Memory.get, hx, ih h.2.2.2]

/-- A read after a write: the byte written there, and every other byte as before. -/
theorem Memory.get_put {m : Memory} (h : m.wf = true) (a x : Nat) (v : Byte) :
    (m.put a v).get x = if x = a then v else m.get x := Memory.get_put_from h x v

theorem Memory.wfFrom_put {lo a : Nat} {m : Memory} (h : Memory.wfFrom lo m = true) (hlo : lo ≤ a) (ha : a < 16)
    (v : Byte) : Memory.wfFrom lo (m.put a v) = true := by
  induction m generalizing lo with
  | nil => by_cases hv : v = 0#8 <;> simp [Memory.put, hv, Memory.wfFrom, hlo, ha, Config.maxFrameBytes]
  | cons c rest ih =>
    obtain ⟨b, w⟩ := c
    have h' := h
    rw [Memory.wfFrom_cons] at h
    simp only [Memory.put]
    split
    · split
      · exact h'
      · rename_i hab hv
        simp only [Memory.wfFrom_cons]
        exact ⟨hlo, ha, hv, by omega, h.2.1, h.2.2.1, h.2.2.2⟩
    · split
      · rename_i hab
        split
        · exact Memory.wfFrom_mono h.2.2.2 (by omega)
        · rename_i hv
          simp only [Memory.wfFrom_cons]
          exact ⟨hlo, ha, hv, hab ▸ h.2.2.2⟩
      · simp only [Memory.wfFrom_cons]
        exact ⟨h.1, h.2.1, h.2.2.1, ih h.2.2.2 (by omega)⟩

/-- A store inside the buffer keeps the canonical form. -/
theorem Memory.wf_put {m : Memory} (h : m.wf = true) {a : Nat} (ha : a < 16) (v : Byte) : (m.put a v).wf = true :=
  Memory.wfFrom_put h (Nat.zero_le a) ha v

theorem Memory.wf_write {m : Memory} (h : m.wf = true) (i : BitVec 4) (v : Byte) : (m.write i v).wf = true :=
  Memory.wf_put h i.isLt v

theorem Memory.read_write {m : Memory} (h : m.wf = true) (i j : BitVec 4) (v : Byte) :
    (m.write i v).read j = if j = i then v else m.read j := by
  simp [Memory.write, Memory.read, Memory.get_put h, BitVec.toNat_inj]

/-- Writing a list inside the buffer keeps the canonical form. -/
theorem Memory.wf_putBytes {m : Memory} (h : m.wf = true) {a : Nat} {l : List Byte} (hl : a + l.length ≤ 16) :
    (m.putBytes a l).wf = true := by
  induction l generalizing m a with
  | nil => exact h
  | cons v rest ih =>
    simp only [List.length_cons] at hl
    exact ih (Memory.wf_put h (by omega) v) (by omega)

/-- What a written list reads back as, and that it leaves every other byte alone. -/
theorem Memory.get_putBytes {m : Memory} (h : m.wf = true) {a : Nat} {l : List Byte} (hl : a + l.length ≤ 16) (x : Nat) :
    (m.putBytes a l).get x = if a ≤ x ∧ x < a + l.length then l.getD (x - a) 0#8 else m.get x := by
  induction l generalizing m a with
  | nil => simp [Memory.putBytes, show ¬ (a ≤ x ∧ x < a) by omega]
  | cons v rest ih =>
    simp only [List.length_cons] at hl
    simp only [Memory.putBytes, List.length_cons]
    rw [ih (Memory.wf_put h (by omega) v) (by omega), Memory.get_put h]
    by_cases hx : x = a
    · simp [hx]
    · by_cases hin : a + 1 ≤ x ∧ x < a + 1 + rest.length
      · have : x - a = x - (a + 1) + 1 := by omega
        rw [if_pos hin, if_pos (show a ≤ x ∧ x < a + (rest.length + 1) by omega), this, List.getD_cons_succ]
      · rw [if_neg hin, if_neg hx, if_neg (show ¬ (a ≤ x ∧ x < a + (rest.length + 1)) by omega)]

/-- The bytes of a written list read back whole. -/
theorem Memory.bytes_putBytes {m : Memory} (h : m.wf = true) {l : List Byte} (hl : l.length ≤ 16) :
    (m.putBytes 0 l).bytes l.length = l := by
  apply List.ext_getElem
  · simp [Memory.bytes]
  · intro i h₁ h₂
    simp [Memory.bytes, Memory.get_putBytes h (a := 0) (l := l) (by omega), h₂]

/-- Two canonical buffers that read alike everywhere are the same list. -/
theorem Memory.ext_from {lo : Nat} {m₁ m₂ : Memory} (h₁ : Memory.wfFrom lo m₁ = true) (h₂ : Memory.wfFrom lo m₂ = true)
    (h : ∀ a, m₁.get a = m₂.get a) : m₁ = m₂ := by
  induction m₁ generalizing lo m₂ with
  | nil =>
    cases m₂ with
    | nil => rfl
    | cons c rest =>
      obtain ⟨b, v⟩ := c
      rw [Memory.wfFrom_cons] at h₂
      exact absurd (h b).symm (by simp [Memory.get, h₂.2.2.1])
  | cons c₁ rest₁ ih =>
    obtain ⟨b₁, v₁⟩ := c₁
    rw [Memory.wfFrom_cons] at h₁
    cases m₂ with
    | nil => exact absurd (h b₁) (by simp [Memory.get, h₁.2.2.1])
    | cons c₂ rest₂ =>
      obtain ⟨b₂, v₂⟩ := c₂
      rw [Memory.wfFrom_cons] at h₂
      have hb : b₁ = b₂ := by
        rcases Nat.lt_trichotomy b₁ b₂ with hlt | heq | hgt
        · have := h b₁
          simp only [Memory.get, if_true, if_neg (show b₁ ≠ b₂ by omega),
            Memory.get_of_lt h₂.2.2.2 (show b₁ < b₂ + 1 by omega)] at this
          exact absurd this h₁.2.2.1
        · exact heq
        · have := h b₂
          simp only [Memory.get, if_true, if_neg (show b₂ ≠ b₁ by omega),
            Memory.get_of_lt h₁.2.2.2 (show b₂ < b₁ + 1 by omega)] at this
          exact absurd this.symm h₂.2.2.1
      subst hb
      have hv : v₁ = v₂ := by simpa [Memory.get] using h b₁
      subst hv
      congr 1
      refine ih h₁.2.2.2 h₂.2.2.2 fun a => ?_
      by_cases ha : a = b₁
      · rw [Memory.get_of_lt h₁.2.2.2 (by omega), Memory.get_of_lt h₂.2.2.2 (by omega)]
      · simpa [Memory.get, ha] using h a

/-- Equal buffers are equal data. -/
theorem Memory.ext {m₁ m₂ : Memory} (h₁ : m₁.wf = true) (h₂ : m₂.wf = true) (h : ∀ a, m₁.get a = m₂.get a) : m₁ = m₂ :=
  Memory.ext_from h₁ h₂ h

/-- Both buffers at reset are in canonical form. -/
theorem State.reset_buffers_wf : State.reset.rx.buf.wf = true ∧ State.reset.tx.frame.wf = true := ⟨rfl, rfl⟩

end Sys2Proof.Machine
end

