-- ==== Sys2Proof/Laws/Ops.lean ====
section
/-! SUPPORT. One lemma for each shared operation that says once everything it can do; proofs cite it instead of
unfolding the operation. -/

namespace Sys2Proof.Machine

variable {s t : State}

/-! ### Outcomes -/

@[simp] theorem andThen_next (k : State → Result) : andThen (.next s) k = k s := rfl
@[simp] theorem andThen_fault (f : Fault) (k : State → Result) : andThen (.fault f) k = .fault f := rfl
@[simp] theorem andThen_refused (r : Refusal) (k : State → Result) : andThen (.refused r) k = .refused r := rfl

/-- A sequence answers next exactly when both parts do. -/
theorem andThen_eq_next {r : Result} {k : State → Result} :
    andThen r k = .next t ↔ ∃ m, r = .next m ∧ k m = .next t := by
  cases r <;> simp [andThen]

theorem next_inj : (Host.Outcome.next s : Result) = .next t ↔ s = t := ⟨fun h => by injection h, fun h => by rw [h]⟩

/-! ### Time -/

@[simp] theorem atOrAfter_self (a : Time) : atOrAfter a a = true := by simp [atOrAfter]

@[simp] theorem latest_self (a : Time) : latest a a = a := by simp [latest]

/-- The later of two times is one of them. -/
theorem latest_eq_or (a b : Time) : latest a b = a ∨ latest a b = b := by
  unfold latest; split <;> simp

/-- A disarmed timer does not fire (R103). -/
@[simp] theorem State.fires_none : s.fires none = false := rfl

/-! ### Windows and bits (R25, R249) -/

theorem inW_iff {d : Time} {w : Window} : inW d w = true ↔ w.lo ≤ d.toNat ∧ d.toNat ≤ w.hi := by
  simp [inW]

/-- `classify` reads 1 exactly in RX_BIT1_LOW. -/
theorem classify_one {d : Time} : classify d = some true ↔ 400 ≤ d.toNat ∧ d.toNat ≤ 800 := by
  unfold classify
  split
  · rename_i h; exact iff_of_true rfl (inW_iff.1 h)
  · rename_i h
    refine iff_of_false ?_ fun hc => h (inW_iff.2 hc)
    split <;> simp

/-- `classify` reads 0 exactly in RX_BIT0_LOW: the two windows do not overlap. -/
theorem classify_zero {d : Time} : classify d = some false ↔ 1300 ≤ d.toNat ∧ d.toNat ≤ 1700 := by
  unfold classify
  split
  · rename_i h
    have := inW_iff.1 h
    refine iff_of_false (by simp) fun hc => ?_
    simp only [Config.rxBit1Low] at this
    omega
  · split
    · rename_i h; exact iff_of_true rfl (inW_iff.1 h)
    · rename_i h; exact iff_of_false (by simp) fun hc => h (inW_iff.2 hc)

/-- `classify` reads nothing outside both windows. -/
theorem classify_none {d : Time} :
    classify d = none ↔ ¬ (400 ≤ d.toNat ∧ d.toNat ≤ 800) ∧ ¬ (1300 ≤ d.toNat ∧ d.toNat ≤ 1700) := by
  rw [← classify_one, ← classify_zero]
  cases classify d with
  | none => simp
  | some b => cases b <;> simp

/-! ### Line and edges (R100, R101, R566) -/

theorem State.line_iff : s.line = true ↔ s.rxDrive = false ∧ s.txDrive = false ∧ s.envLow = false := by
  simp [State.line, and_assoc]

/-- What an edge leaves pending. -/
theorem State.edgeHappens_edgePending (p : Polarity) :
    (s.edgeHappens p).edgePending =
      if s.edgeArmed = true ∧ s.edgePending = none then some ⟨p, s.clock⟩ else s.edgePending := by
  unfold State.edgeHappens
  by_cases h₁ : s.edgeArmed <;> cases h₂ : s.edgePending <;> simp [h₁, h₂]

/-! ### Notification (R104) -/

/-- `notify` answers next exactly into an empty slot, and stores its value there. -/
theorem notify_eq_next {v : Notification} :
    notify v s = .next t ↔ s.notifySlot = none ∧ t = { s with notifySlot := some v } := by
  unfold notify
  cases s.notifySlot <;> simp [eq_comm]

/-- Into a full slot it is the fault NOTIFY_FULL. -/
theorem notify_full {v w : Notification} (h : s.notifySlot = some w) : notify v s = .fault .notifyFull := by
  simp [notify, h]

/-! ### Reads of state that may have no value (R623) -/

theorem withInterval_some {t₀ : Time} {k : Time → Result} (h : s.rx.tref = some t₀) :
    withInterval s k = k (s.elapsed t₀) := by simp [withInterval, h]

theorem withInterval_none {k : Time → Result} (h : s.rx.tref = none) : withInterval s k = .fault .unwrittenRead := by
  simp [withInterval, h]

theorem withLa_some {la : LogicalAddr} {k : LogicalAddr → Result} (h : s.pc.la = some la) : withLa s k = k la := by
  simp [withLa, h]

theorem withLa_none {k : LogicalAddr → Result} (h : s.pc.la = none) : withLa s k = .fault .unwrittenRead := by
  simp [withLa, h]

theorem withTxLen_some {n : Fin 17} {k : Fin 17 → Result} (h : s.tx.len = some n) : withTxLen s k = k n := by
  simp [withTxLen, h]

/-! ### The abort (R560) -/

/-- Everything an abort does: it answers next exactly when the slot is empty. -/
theorem raiseAbort_eq_next {c : Cause} {d : Option Time} :
    raiseAbort c d s = .next t ↔
      s.notifySlot = none ∧
        t = { s with
          rx := { s.rx with cause := c.code, len := some 0, phase := .abort }
          logq := s.logq ++ [⟨s.clock, .rx, .rxAbort c s.rx.phase d⟩]
          notifySlot := some (.rxDone 0) } := by
  simp only [raiseAbort, notify_eq_next, State.log]

/-! ### Receive and send starts (R380, R383) -/

/-- Everything a receive start does. -/
theorem receiveStart_eq_next :
    receiveStart s = .next t ↔
      (s.tx.phase = .idle ∧ s.notifySlot = none ∧ s.rx.ackActive = false) ∧
        ∃ la, s.pc.la = some la ∧
          t = { s with
            rx :=
              { phase := .awaitStart, byte := 0, bit := 7, tref := none, ackActive := false, eom := false
                target := some la, buf := [], len := none, cause := 0 }
            edgeArmed := true
            pc := { s.pc with op := .receiving } } := by
  unfold receiveStart
  split
  · rename_i h
    cases hla : s.pc.la <;> simp [h, eq_comm]
  · rename_i h
    simp [h]

/-- Everything a send start does. -/
theorem sendStart_eq_next {why : SendFor} {f : List Byte} :
    sendStart why f s = .next t ↔
      (1 ≤ f.length ∧ f.length ≤ 16) ∧
        (s.tx.phase = .idle ∧ s.notifySlot = none ∧ s.edgeArmed = false ∧ s.rx.ackActive = false) ∧
          t = { s with
            pc := { s.pc with freeCount := 0, op := .freeWait why f }
            freeTimer := some (s.alarm s.clock Config.freeBitTime) } := by
  unfold sendStart
  by_cases hl : f.length < 1 ∨ f.length > 16
  · simp only [hl, if_true, reduceCtorEq, false_iff]
    omega
  · have hl' : 1 ≤ f.length ∧ f.length ≤ 16 := by omega
    simp only [hl, if_false, hl', true_and]
    split
    · rename_i h
      simp only [next_inj, h, true_and]
      exact ⟨Eq.symm, Eq.symm⟩
    · rename_i h
      simp [h]

/-- A frame of another length than 1 to 16 is refused, whatever the state (R213). -/
theorem sendStart_length {why : SendFor} {f : List Byte} (h : f.length < 1 ∨ f.length > 16) :
    sendStart why f s = .refused .sendLength := by rw [sendStart, if_pos h]

/-- Everything the launch of a send does. -/
theorem sendLaunch_of_length {why : SendFor} {f : List Byte} (h : f.length < 17) :
    sendLaunch why f s = .next { s with
      tx :=
        { phase := .startLow, frame := s.tx.frame.putBytes 0 f, len := some ⟨f.length, h⟩, byte := 0, bit := 7
          t0 := none, ack := true }
      txTimer := some (s.alarm s.clock 0)
      pc := { s.pc with op := .sending why } } := by simp [sendLaunch, h]

/-! ### The end of a dispatch (R511) -/

/-- Everything the end of a dispatch does. -/
theorem react_eq (as : List Action) (s : State) :
    react as s = .next { s with pc := { s.pc with actions := as, point := .act } } := rfl

/-- A unicast request answers next exactly when `pc.LA` has a value. -/
theorem replyIfUnicast_some {build : LogicalAddr → LogicalAddr → List Byte} {h : Header} {la : LogicalAddr}
    (hla : s.pc.la = some la) :
    replyIfUnicast build h s = react (if unicast h la then [.send (build la h.init)] else []) s := by
  simp [replyIfUnicast, withLa_some hla]

/-- A routing message with `pc.LA` known. -/
theorem routingReply_some {operand : Option PhysicalAddr} {la : LogicalAddr} (hla : s.pc.la = some la) :
    routingReply operand s =
      react (if namesPa operand s.pc.pa then [.send (frameImageViewOn la), .send (frameActiveSource la s.pc.pa)] else []) s := by
  unfold routingReply
  split <;> simp [withLa_some hla]

/-! ### The key channel (R585) -/

/-- There is room in an empty channel, whatever KEYQ_DEPTH is. -/
theorem State.keyRoom_of_empty (h : s.keyq = []) : s.keyRoom = true := by
  simp [State.keyRoom, h, Config.keyqDepth]

/-! ### Time between steps (R566, R572) -/

/-- A stretch of time never passes further than asked. -/
theorem State.timerLimit_le (timer : Option Alarm) (us : Nat) : s.timerLimit timer us ≤ us := by
  unfold State.timerLimit
  split
  · exact le_rfl
  · split
    · exact min_le_left _ _
    · split
      · exact le_rfl
      · exact min_le_left _ _

theorem State.edgeLimit_le (us : Nat) : s.edgeLimit us ≤ us := by
  unfold State.edgeLimit
  split
  · exact le_rfl
  · exact min_le_left _ _

theorem State.pcLimit_le (us : Nat) : s.pcLimit us ≤ us := by
  unfold State.pcLimit
  split
  · exact Nat.zero_le _
  · split
    · split
      · exact le_rfl
      · exact min_le_left _ _
    · exact min_le_left _ _
    · exact le_rfl

theorem State.timeLimit_le (us : Nat) : s.timeLimit us ≤ us :=
  (State.timerLimit_le _ _).trans <| (State.timerLimit_le _ _).trans <| (State.timerLimit_le _ _).trans <|
    (State.edgeLimit_le _).trans (State.pcLimit_le _)

/-- A clock at most `L` past a time is still so after a stretch of time that fits in what is left of `L`. -/
theorem elapsed_le_of_le {c r : Time} {k L : Nat} (hk : k ≤ L - (c - r).toNat) (h : (c - r).toNat ≤ L) :
    ((c + micros k) - r).toNat ≤ L := by
  have hc := c.isLt
  have hr := r.isLt
  simp only [micros, BitVec.toNat_sub, BitVec.toNat_add, BitVec.toNat_ofNat] at *
  omega

/-- A clock before a time is at most `L` past it after a stretch of time of at most the way there and `L`. -/
theorem elapsed_le_of_before {c r : Time} {k L : Nat} (hk : k ≤ (r - c).toNat + L) (h : atOrAfter c r = false)
    (h' : atOrAfter (c + micros k) r = true) : ((c + micros k) - r).toNat ≤ L := by
  have hc := c.isLt
  have hr := r.isLt
  simp only [atOrAfter, decide_eq_false_iff_not, decide_eq_true_eq, micros, BitVec.toNat_sub, BitVec.toNat_add,
    BitVec.toNat_ofNat] at *
  omega

/-! ### Agent steps -/

/-- A change of the line's drivers changes nothing else but the pending edge (R101, R566). -/
theorem lineChange_eq (old new : State) : lineChange old new = { new with edgePending := (lineChange old new).edgePending } := by
  unfold lineChange State.edgeHappens
  split
  · rfl
  · split <;> rfl

/-- PC moves when the condition it is blocked on holds, and is left alone before (R510). -/
theorem takeMove_pc_of_ready (h : s.pcReady = true) : takeMove .pc s = pcStep s := by simp [takeMove, h]
theorem takeMove_pc_of_blocked (h : s.pcReady = false) : takeMove .pc s = .next s := by simp [takeMove, h]

/-- With edges disarmed a change of the line leaves no edge (R566). -/
theorem lineChange_disarmed {old new : State} (h : new.edgeArmed = false) : lineChange old new = new := by
  simp [lineChange, State.edgeHappens, h]

/-- RX takes the pending edge, whatever its polarity (R240). -/
theorem rxStep_of_edgeIs {p : Polarity} (h : s.edgeIs p = true) : rxStep s = rxHandle p s := by
  unfold State.edgeIs at h
  split at h
  · rename_i e he
    have hp : e.polarity = p := by simpa using h
    simp [rxStep, he, hp]
  · cases h

/-- What the handler leaves when its rule aborts (R242, R560). -/
theorem rxExit_raiseAbort {c : Cause} {d : Option Time} (h : s.notifySlot = none) :
    (andThen (raiseAbort c d (rxEntry s)) fun s' => .next (rxExit s')) = .next (s.abortedWith c.code c d) := by
  simp [raiseAbort, rxEntry, notify, h, State.log, rxExit, State.abortedWith]

/-- TX runs its phase's callback when its timer fires (R103). -/
theorem txStep_of_fires {a : Alarm} (ha : s.txTimer = some a) (h : s.fires s.txTimer = true) :
    txStep s = txCallback a { s with txTimer := none } := by
  simp only [txStep, ha] at *
  simp [h]

/-- An instruction's step ends in `react`, or in the fault UNWRITTEN_READ: nothing but the action list and the program
point can change. -/
theorem exec_react (i : Instr) (s : State) :
    (∃ as, exec i s = react as s) ∨ s.pc.la = none ∧ exec i s = .fault .unwrittenRead := by
  cases hla : s.pc.la with
  | none =>
    cases i <;> first
      | exact .inl ⟨_, rfl⟩
      | (right; simp [exec, execGiveOsdName, execGiveAudioStatus, execGiveSystemAudioModeStatus,
          execGivePhysicalAddress, execGiveDeviceVendorId, execGiveDevicePowerStatus, execGetCecVersion,
          replyIfUnicast, withLa_none hla]; done)
      | (simp only [exec, execRoutingChange, execSetStreamPath, routingReply, withLa_none hla]
         split
         · exact .inr ⟨trivial, rfl⟩
         · exact .inl ⟨_, rfl⟩)
  | some la =>
    left
    cases i <;> first
      | exact ⟨_, rfl⟩
      | exact ⟨_, routingReply_some hla⟩
      | exact ⟨_, replyIfUnicast_some (build := fun la d => _) hla⟩

/-! ### Runs (R665) -/

@[simp] theorem runFor_zero : runFor 0 s = some s := rfl
theorem runFor_succ_of_next {t : State} (k : Nat) (h : step s = .next t) : runFor (k + 1) s = runFor k t := by
  simp [runFor, h]
theorem endOfRun_of_ended (k : Nat) (h : s.runEnded = true) : endOfRun k s = some s := by cases k <;> simp [endOfRun, h]
theorem endOfRun_succ_of_next {t : State} (k : Nat) (h : s.runEnded = false) (hs : step s = .next t) :
    endOfRun (k + 1) s = endOfRun k t := by simp [endOfRun, h, hs]

/-! ### Encodings and sums -/

theorem headerOf_headerByte (h : Header) : headerOf (headerByte h) = h := by
  have : ∀ a b : LogicalAddr, headerOf (headerByte ⟨a, b⟩) = ⟨a, b⟩ := by decide
  exact this h.init h.dst

theorem headerByte_headerOf : ∀ b : Byte, headerByte (headerOf b) = b := by
  simp only [headerByte, headerOf, initiatorOf, destinationOf]
  decide

/-- A sum modulo 256, as a sum of numbers (R473, R474). -/
theorem byteSum_toNat (l : List Byte) : (byteSum l).toNat = (l.map BitVec.toNat).sum % 256 := by
  have : ∀ (l : List Byte) (a : Byte), (l.foldl (· + ·) a).toNat = (a.toNat + (l.map BitVec.toNat).sum) % 256 := by
    intro l
    induction l with
    | nil => intro a; simp only [List.foldl_nil, List.map_nil, List.sum_nil]; omega
    | cons b r ih => intro a; simp only [List.foldl_cons, ih, List.map_cons, List.sum_cons, BitVec.toNat_add]; omega
  simpa [byteSum] using this l 0

end Sys2Proof.Machine
end

