-- ==== Sys2Proof/Laws/PerInstr.lean ====
section
/-! SUPPORT. Families of statements over all instructions, one lemma per constructor.
EncodeShape: the frame of an instruction begins with its header byte, has its opcode next where it has one, and its
operands after that; with operands that fit it has 1 to 16 bytes (R12, R190 to R192, R360). -/

namespace Sys2Proof.Laws.EncodeShape

/-- What EncodeShape says of one instruction. -/
def Statement (i : Instr) : Prop :=
  encode i = headerByte i.header :: (i.opcode.toList ++ i.operands) ∧
    (i.operandsFit = true → 1 ≤ (encode i).length ∧ (encode i).length ≤ 16)

/-- Every message, given its opcode. -/
theorem of_opcode {i : Instr} {op : Byte} (h : i.opcode = some op) : Statement i := by
  have he : encode i = headerByte i.header :: op :: i.operands := by simp [encode, h]
  refine ⟨by simp [he, h], fun hfit => ?_⟩
  have : i.operands.length ≤ 14 := by simpa [Instr.operandsFit] using hfit
  simp only [he, List.length_cons]
  omega

theorem poll (h : Header) : Statement (.poll h) := ⟨rfl, fun _ => by simp [encode, Instr.opcode]⟩
theorem imageViewOn (h : Header) (ops : List Byte) : Statement (.imageViewOn h ops) := of_opcode rfl
theorem textViewOn (h : Header) (ops : List Byte) : Statement (.textViewOn h ops) := of_opcode rfl
theorem standby (h : Header) (ops : List Byte) : Statement (.standby h ops) := of_opcode rfl
theorem userControlPressed (h : Header) (ops : List Byte) : Statement (.userControlPressed h ops) := of_opcode rfl
theorem userControlReleased (h : Header) (ops : List Byte) : Statement (.userControlReleased h ops) := of_opcode rfl
theorem giveOsdName (h : Header) (ops : List Byte) : Statement (.giveOsdName h ops) := of_opcode rfl
theorem setOsdName (h : Header) (ops : List Byte) : Statement (.setOsdName h ops) := of_opcode rfl
theorem systemAudioModeRequest (h : Header) (ops : List Byte) : Statement (.systemAudioModeRequest h ops) := of_opcode rfl
theorem giveAudioStatus (h : Header) (ops : List Byte) : Statement (.giveAudioStatus h ops) := of_opcode rfl
theorem setSystemAudioMode (h : Header) (ops : List Byte) : Statement (.setSystemAudioMode h ops) := of_opcode rfl
theorem reportAudioStatus (h : Header) (ops : List Byte) : Statement (.reportAudioStatus h ops) := of_opcode rfl
theorem giveSystemAudioModeStatus (h : Header) (ops : List Byte) : Statement (.giveSystemAudioModeStatus h ops) := of_opcode rfl
theorem reportSystemAudioModeStatus (h : Header) (ops : List Byte) : Statement (.reportSystemAudioModeStatus h ops) := of_opcode rfl
theorem routingChange (h : Header) (ops : List Byte) : Statement (.routingChange h ops) := of_opcode rfl
theorem reportMenuLanguageAsNamed (h : Header) (ops : List Byte) : Statement (.reportMenuLanguageAsNamed h ops) := of_opcode rfl
theorem activeSource (h : Header) (ops : List Byte) : Statement (.activeSource h ops) := of_opcode rfl
theorem givePhysicalAddress (h : Header) (ops : List Byte) : Statement (.givePhysicalAddress h ops) := of_opcode rfl
theorem reportPhysicalAddress (h : Header) (ops : List Byte) : Statement (.reportPhysicalAddress h ops) := of_opcode rfl
theorem requestActiveSource (h : Header) (ops : List Byte) : Statement (.requestActiveSource h ops) := of_opcode rfl
theorem setStreamPath (h : Header) (ops : List Byte) : Statement (.setStreamPath h ops) := of_opcode rfl
theorem deviceVendorId (h : Header) (ops : List Byte) : Statement (.deviceVendorId h ops) := of_opcode rfl
theorem giveDeviceVendorId (h : Header) (ops : List Byte) : Statement (.giveDeviceVendorId h ops) := of_opcode rfl
theorem menuStatus (h : Header) (ops : List Byte) : Statement (.menuStatus h ops) := of_opcode rfl
theorem giveDevicePowerStatus (h : Header) (ops : List Byte) : Statement (.giveDevicePowerStatus h ops) := of_opcode rfl
theorem reportPowerStatus (h : Header) (ops : List Byte) : Statement (.reportPowerStatus h ops) := of_opcode rfl
theorem getMenuLanguage (h : Header) (ops : List Byte) : Statement (.getMenuLanguage h ops) := of_opcode rfl
theorem inactiveSource (h : Header) (ops : List Byte) : Statement (.inactiveSource h ops) := of_opcode rfl
theorem cecVersion (h : Header) (ops : List Byte) : Statement (.cecVersion h ops) := of_opcode rfl
theorem getCecVersion (h : Header) (ops : List Byte) : Statement (.getCecVersion h ops) := of_opcode rfl
theorem vendorCommandWithId (h : Header) (ops : List Byte) : Statement (.vendorCommandWithId h ops) := of_opcode rfl
theorem abort (h : Header) (ops : List Byte) : Statement (.abort h ops) := of_opcode rfl
theorem unnamedOpcode (op : Byte) (h : Header) (ops : List Byte) : Statement (.unnamedOpcode op h ops) := of_opcode rfl

end Sys2Proof.Laws.EncodeShape
end

