-- ==== Sys2Proof/Tests/Slice0.lean ====
section
/-! SUPPORT. The model's own tests. The expected values are written out from the spec: the words from its encoding
tables (30_encoding.md), the outcomes from its vectors (95_test_vectors.md, by their labels). A `witness_` theorem
shows, for the obligation it is named after, a concrete state and operands that meet its hypotheses, at the bounds of
their ranges. -/

namespace Sys2Proof.Tests

open Sys2Proof.Machine

/-! ### Well-formedness: each check refuses an ill-formed term -/

theorem test_wellFormed_refuses_fifteen_operands :
    (Instr.standby ⟨0x0, 0x4⟩ (List.replicate 15 0x00)).wellFormed = false := by decide
theorem test_wellFormed_refuses_named_opcode_in_default_row :
    (Instr.unnamedOpcode 0x36 ⟨0x0, 0x4⟩ []).wellFormed = false := by decide
theorem test_wellFormed_accepts :
    (Instr.setOsdName ⟨0x0, 0x4⟩ (List.replicate 14 0x41)).wellFormed = true ∧
    (Instr.poll ⟨0x4, 0x4⟩).wellFormed = true ∧ (Instr.unnamedOpcode 0xC0 ⟨0x0, 0x4⟩ []).wellFormed = true := by decide

/-! ### Decoding: every constructor, from header (initiator, destination), opcode and operands (R190 to R192, R205) -/

theorem test_decode_poll : decode [0xB8] = .message (.poll ⟨0xB, 0x8⟩) := by decide
theorem test_decode_remote_control :
    decode [0x04, 0x44, 0x01] = .message (.userControlPressed ⟨0x0, 0x4⟩ [0x01]) ∧
    decode [0x04, 0x45] = .message (.userControlReleased ⟨0x0, 0x4⟩ []) := by decide
theorem test_decode_requests :
    decode [0x04, 0x46] = .message (.giveOsdName ⟨0x0, 0x4⟩ []) ∧
    decode [0x54, 0x71] = .message (.giveAudioStatus ⟨0x5, 0x4⟩ []) ∧
    decode [0x54, 0x7D] = .message (.giveSystemAudioModeStatus ⟨0x5, 0x4⟩ []) ∧
    decode [0x04, 0x83] = .message (.givePhysicalAddress ⟨0x0, 0x4⟩ []) ∧
    decode [0x04, 0x8C] = .message (.giveDeviceVendorId ⟨0x0, 0x4⟩ []) ∧
    decode [0x14, 0x8F] = .message (.giveDevicePowerStatus ⟨0x1, 0x4⟩ []) ∧
    decode [0x04, 0x9F] = .message (.getCecVersion ⟨0x0, 0x4⟩ []) := by decide
theorem test_decode_routing :
    decode [0x0F, 0x80, 0x00, 0x00, 0x10, 0x20] = .message (.routingChange ⟨0x0, 0xF⟩ [0x00, 0x00, 0x10, 0x20]) ∧
    decode [0x0F, 0x86, 0x10, 0x20] = .message (.setStreamPath ⟨0x0, 0xF⟩ [0x10, 0x20]) := by decide
theorem test_decode_cues :
    decode [0x0F, 0x84, 0x00, 0x00, 0x00] = .message (.reportPhysicalAddress ⟨0x0, 0xF⟩ [0x00, 0x00, 0x00]) ∧
    decode [0x0F, 0x87, 0x00, 0x00, 0xF0] = .message (.deviceVendorId ⟨0x0, 0xF⟩ [0x00, 0x00, 0xF0]) := by decide
theorem test_decode_unhandled_low :
    decode [0x40, 0x04] = .message (.imageViewOn ⟨0x4, 0x0⟩ []) ∧
    decode [0x40, 0x0D] = .message (.textViewOn ⟨0x4, 0x0⟩ []) ∧
    decode [0x0F, 0x36] = .message (.standby ⟨0x0, 0xF⟩ []) ∧
    decode [0x40, 0x47, 0x50, 0x69] = .message (.setOsdName ⟨0x4, 0x0⟩ [0x50, 0x69]) ∧
    decode [0x05, 0x70, 0x10, 0x00] = .message (.systemAudioModeRequest ⟨0x0, 0x5⟩ [0x10, 0x00]) ∧
    decode [0x5F, 0x72, 0x01] = .message (.setSystemAudioMode ⟨0x5, 0xF⟩ [0x01]) ∧
    decode [0x50, 0x7A, 0x32] = .message (.reportAudioStatus ⟨0x5, 0x0⟩ [0x32]) ∧
    decode [0x50, 0x7E, 0x01] = .message (.reportSystemAudioModeStatus ⟨0x5, 0x0⟩ [0x01]) ∧
    decode [0x04, 0x81] = .message (.reportMenuLanguageAsNamed ⟨0x0, 0x4⟩ []) := by decide
theorem test_decode_unhandled_high :
    decode [0x4F, 0x82, 0x10, 0x20] = .message (.activeSource ⟨0x4, 0xF⟩ [0x10, 0x20]) ∧
    decode [0x0F, 0x85] = .message (.requestActiveSource ⟨0x0, 0xF⟩ []) ∧
    decode [0x40, 0x8E, 0x00] = .message (.menuStatus ⟨0x4, 0x0⟩ [0x00]) ∧
    decode [0x04, 0x90, 0x00] = .message (.reportPowerStatus ⟨0x0, 0x4⟩ [0x00]) ∧
    decode [0x40, 0x91] = .message (.getMenuLanguage ⟨0x4, 0x0⟩ []) ∧
    decode [0x40, 0x9D, 0x10, 0x20] = .message (.inactiveSource ⟨0x4, 0x0⟩ [0x10, 0x20]) ∧
    decode [0x04, 0x9E, 0x05] = .message (.cecVersion ⟨0x0, 0x4⟩ [0x05]) ∧
    decode [0x04, 0xA0, 0x00, 0x00, 0xF0] = .message (.vendorCommandWithId ⟨0x0, 0x4⟩ [0x00, 0x00, 0xF0]) ∧
    decode [0x04, 0xFF] = .message (.abort ⟨0x0, 0x4⟩ []) ∧
    decode [0x04, 0xC0] = .message (.unnamedOpcode 0xC0 ⟨0x0, 0x4⟩ []) := by decide
theorem test_decode_rejects :
    decode [] = .rejected .emptyFrame ∧ decode (List.replicate 17 0x00) = .rejected .frameTooLong := by decide
theorem test_decode_table_words :
    decodeTableWord 8 0x44 = some (.poll ⟨0x4, 0x4⟩) ∧
    decodeTableWord 16 0x0436 = some (.standby ⟨0x0, 0x4⟩ []) := by decide

/-! ### Dispatch: the vectors DV, one step from DISPATCH -/

/-- A device at logical address 4 and physical address 1.0.2.0, everything else as at reset. -/
def known : State := { State.reset with pc := { State.reset.pc with la := some 0x4, pa := 0x1020 } }

/-- The action list one step leaves when this frame has been delivered. -/
def dispatched (f : List Byte) (s : State) : Option (List Action) :=
  match step (s.withFrame f) with
  | .next t => some t.pc.actions
  | _ => none

theorem test_dispatch_poll : dispatched [0x44] known = some [] := by decide
theorem test_dispatch_power_status :
    dispatched [0x04, 0x8F] known = some [.send [0x40, 0x90, 0x00]] ∧
    dispatched [0x14, 0x8F] known = some [.send [0x41, 0x90, 0x00]] ∧
    dispatched [0x08, 0x8F] known = some [] ∧ dispatched [0x0F, 0x8F] known = some [] := by decide
theorem test_dispatch_power_status_at_address_15 :
    dispatched [0x0F, 0x8F] { known with pc := { known.pc with la := some 0xF } } =
      some [.send [0xF0, 0x90, 0x00]] := by decide
theorem test_dispatch_key_up :
    dispatched [0x04, 0x44, 0x01] known = some [.key Config.keyUp] ∧
    dispatched [0x08, 0x44, 0x01] known = some [.key Config.keyUp] ∧
    dispatched [0x04, 0x44, 0x01, 0x02] known = some [.key Config.keyUp] := ⟨rfl, rfl, rfl⟩
theorem test_dispatch_key_without_operand :
    dispatched [0x04, 0x44] known = some [.log (.malformed 0x44 2)] := by decide
theorem test_dispatch_key_released :
    dispatched [0x04, 0x45] known = some [.key Config.noKey] ∧
    dispatched [0x04, 0x45, 0x07] known = some [.key Config.noKey] := ⟨rfl, rfl⟩
theorem test_dispatch_osd_name : dispatched [0x04, 0x46] known = some [.send (0x40 :: 0x47 :: Config.osdName)] := rfl
theorem test_dispatch_audio_status : dispatched [0x54, 0x71] known = some [.send [0x45, 0x7A, Config.audioStatus]] := rfl
theorem test_dispatch_sam_status : dispatched [0x04, 0x7D] known = some [.send [0x40, 0x7E, Config.samStatus]] := rfl
theorem test_dispatch_routing_change :
    dispatched [0x0F, 0x80, 0x00, 0x00, 0x10, 0x20] known =
      some [.send [0x40, 0x04], .send [0x4F, 0x82, 0x10, 0x20]] ∧
    dispatched [0x0F, 0x80, 0x10, 0x20, 0x20, 0x00] known = some [] ∧
    dispatched [0x0F, 0x80, 0x00, 0x00, 0x10] known = some [] := by decide
theorem test_dispatch_routing_change_unknown_address :
    dispatched [0x0F, 0x80, 0x00, 0x00, 0x00, 0x00] { known with pc := { known.pc with pa := 0x0000 } } = some [] := by
  decide
theorem test_dispatch_physical_address :
    dispatched [0x04, 0x83] known = some [.send [0x4F, 0x84, 0x10, 0x20, Config.deviceType]] := rfl
theorem test_dispatch_cue_physical_address :
    dispatched [0x0F, 0x84, 0x00, 0x00, 0x00] known = some [.reannounce] ∧
    dispatched [0x0F, 0x84] known = some [.reannounce] ∧ dispatched [0x1F, 0x84, 0x10, 0x00, 0x04] known = some [] ∧
    dispatched [0x04, 0x84, 0x00, 0x00, 0x00] known = some [] := by decide
theorem test_dispatch_stream_path :
    dispatched [0x0F, 0x86, 0x10, 0x20] known = some [.send [0x40, 0x04], .send [0x4F, 0x82, 0x10, 0x20]] ∧
    dispatched [0x0F, 0x86, 0x20, 0x00] known = some [] ∧ dispatched [0x0F, 0x86, 0x10] known = some [] := by decide
theorem test_dispatch_cue_vendor_id :
    dispatched [0x0F, 0x87, 0x00, 0x00, 0xF0] known = some [.reannounce] := by decide
theorem test_dispatch_vendor_id :
    dispatched [0x04, 0x8C] known =
      some [.send [0x4F, 0x87, Config.vendorId.extractLsb' 16 8, Config.vendorId.extractLsb' 8 8,
        Config.vendorId.extractLsb' 0 8]] := rfl
theorem test_dispatch_cec_version :
    dispatched [0x04, 0x9F] known = some [.send [0x40, 0x9E, Config.cecVersion]] ∧
    dispatched [0x08, 0x9F] known = some [] := ⟨rfl, rfl⟩
theorem test_dispatch_unrecognized :
    dispatched [0x04, 0x36] known = some [.log (.unrecognized 0x36 2)] ∧
    dispatched [0x0F, 0x82, 0x20, 0x00] known = some [.log (.unrecognized 0x82 4)] ∧
    dispatched [0x04, 0x90, 0x00] known = some [.log (.unrecognized 0x90 3)] ∧
    dispatched [0x04, 0xC0] known = some [.log (.unrecognized 0xC0 2)] ∧
    dispatched [0x08, 0x36] known = some [.log (.unrecognized 0x36 2)] ∧
    dispatched [0x04, 0xFF] known = some [.log (.unrecognized 0xFF 2)] := by decide
theorem test_dispatch_before_allocation_faults :
    exec (.giveDevicePowerStatus ⟨0x1, 0x4⟩ []) State.reset = .fault .unwrittenRead := rfl

/-! ### Receiver: the vectors RX, one edge -/

/-- A receive in this phase whose reference edge was at 0, and an edge that its handler takes at `d`. -/
def rxAt (ph : RxPhase) (p : Polarity) (d : Nat) : State :=
  { known with
    rx := { known.rx with phase := ph, tref := some 0, target := some 0x4 }
    pc := { known.pc with point := .receive, op := .receiving }
    clock := micros d, edgeArmed := true, edgePending := some ⟨p, micros d⟩ }

/-- The phase and the cause after the edge. -/
def phaseAfter (s : State) : Option (RxPhase × Byte) :=
  match rxStep s with
  | .next t => some (t.rx.phase, t.rx.cause)
  | _ => none

/-- A field after the edge. -/
def rxAfter {α : Type} (field : State → α) (s : State) : Option α :=
  match rxStep s with
  | .next t => some (field t)
  | _ => none

theorem test_rx_await_start :
    phaseAfter (rxAt .awaitStart .rising 500) = some (.awaitStart, 0) ∧
    rxAfter (·.edgeArmed) (rxAt .awaitStart .rising 500) = some true ∧
    rxAfter (·.rx.tref) (rxAt .awaitStart .falling 123) = some (some 123) := by decide
theorem test_rx_start_low :
    [3499, 3500, 3900, 3901, 1500].map (fun d => phaseAfter (rxAt .startLow .rising d)) =
      [some (.abort, 1), some (.startHigh, 0), some (.startHigh, 0), some (.abort, 1), some (.abort, 1)] := by decide
theorem test_rx_start_period :
    [4299, 4300, 4700, 4701].map (fun d => phaseAfter (rxAt .startHigh .falling d)) =
      [some (.abort, 2), some (.dataLow, 0), some (.dataLow, 0), some (.abort, 2)] := by decide
theorem test_rx_data_low :
    [399, 400, 800, 801, 1050, 1299, 1300, 1700, 1701].map (fun d => phaseAfter (rxAt .dataLow .rising d)) =
      [some (.abort, 3), some (.dataHigh, 0), some (.dataHigh, 0), some (.abort, 3), some (.abort, 3),
        some (.abort, 3), some (.dataHigh, 0), some (.dataHigh, 0), some (.abort, 3)] := by decide

/-- As `rxAt`, with this byte begun as byte 0. -/
def rxWithByte (b : Byte) (ph : RxPhase) (p : Polarity) (d : Nat) : State :=
  let s := rxAt ph p d
  { s with rx := { s.rx with buf := s.rx.buf.write 0 b } }

theorem test_rx_shift :
    rxAfter (·.rx.buf.read 0) (rxWithByte 0x01 .dataLow .rising 1300) = some 0x02 ∧
    rxAfter (·.rx.buf.read 0) (rxWithByte 0x5A .dataLow .rising 1700) = some 0xB4 ∧
    rxAfter (·.rx.buf.read 0) (rxWithByte 0x80 .dataLow .rising 600) = some 0x01 := by decide
theorem test_rx_data_period :
    [2049, 2050, 2750, 2751].map (fun d => phaseAfter (rxAt .dataHigh .falling d)) =
      [some (.abort, 4), some (.dataLow, 0), some (.dataLow, 0), some (.abort, 4)] := by decide
theorem test_rx_last_bit_goes_to_eom :
    let s := rxAt .dataHigh .falling 2750
    phaseAfter { s with rx := { s.rx with bit := 0 } } = some (.eomLow, 0) := by decide
theorem test_rx_eom :
    rxAfter (·.rx.eom) (rxAt .eomLow .rising 600) = some true ∧
    rxAfter (·.rx.eom) (rxAt .eomLow .rising 1500) = some false ∧
    phaseAfter (rxAt .eomLow .rising 1000) = some (.abort, 5) := by decide
theorem test_rx_ack_drive :
    [0x04, 0x0F, 0x44, 0x08].map (fun b => rxAfter (·.rxDrive) (rxWithByte b .eomHigh .falling 2400)) =
      [some true, some true, some true, some false] ∧
    rxAfter (·.rxaTimer) (rxWithByte 0x04 .eomHigh .falling 2400) = some (some ⟨3900, 2400⟩) ∧
    phaseAfter (rxWithByte 0x04 .eomHigh .falling 2049) = some (.abort, 6) := by decide
theorem test_rx_frame_done :
    let s := rxAt .ackLow .rising 1500
    rxAfter (·.notifySlot) { s with rx := { s.rx with eom := true, byte := 1 } } = some (some (.rxDone 2)) ∧
    rxAfter (·.edgeArmed) { s with rx := { s.rx with eom := true, byte := 1 } } = some false := by decide
theorem test_rx_ack_low :
    [600, 1700, 1000, 1701].map (fun d => phaseAfter (rxAt .ackLow .rising d)) =
      [some (.ackHigh, 0), some (.ackHigh, 0), some (.abort, 7), some (.abort, 7)] := by decide
theorem test_rx_seventeenth_byte :
    [2400, 2751].map (fun d =>
        let s := rxAt .ackHigh .falling d
        phaseAfter { s with rx := { s.rx with byte := 15 } }) = [some (.abort, 10), some (.abort, 8)] ∧
    phaseAfter (rxAt .ackHigh .falling 2400) = some (.dataLow, 0) := by decide
theorem test_rx_wrong_polarity :
    phaseAfter (rxAt .startLow .falling 3700) = some (.abort, 9) ∧
    phaseAfter (rxAt .ackHigh .rising 2400) = some (.abort, 9) := by decide

/-! ### Transmitter and bus-free wait -/

/-- A send of `40:90:00` in this phase, its callback due now. -/
def txAt (ph : TxPhase) (byte : BitVec 4) (bit : Fin 8) : State :=
  { known with
    tx :=
      { phase := ph, frame := [(0, 0x40), (1, 0x90)], len := some 3, byte := byte, bit := bit, t0 := none, ack := true }
    txTimer := some ⟨0, 0⟩
    pc := { known.pc with point := .act, op := .sending .reply } }

/-- The timer after the callback. -/
def dueAfter (s : State) : Option Time :=
  match txStep s with
  | .next t => t.txTimer.map (·.due)
  | _ => none

theorem test_tx_bit_times :
    dueAfter (txAt .startLow 0 7) = some 3700 ∧ dueAfter (txAt .startHigh 0 7) = some 800 ∧
    dueAfter (txAt .dataLow 0 6) = some 600 ∧ dueAfter (txAt .dataLow 0 7) = some 1500 ∧
    dueAfter (txAt .dataHigh 0 6) = some 1800 ∧ dueAfter (txAt .dataHigh 0 7) = some 900 := by decide
theorem test_tx_eom_times :
    dueAfter (txAt .eomLow 2 0) = some 600 ∧ dueAfter (txAt .eomLow 1 0) = some 1500 := by decide
theorem test_tx_late_callback_does_not_drift :
    dueAfter { txAt .dataLow 0 7 with txTimer := some ⟨4500, 0⟩, clock := 4580 } = some 6000 := by decide
theorem test_tx_ack_sample :
    (match txStep (txAt .ackWait 0 0) with | .next t => some t.tx.ack | _ => none) = some false ∧
    (match txStep { txAt .ackWait 0 0 with envLow := true } with | .next t => some t.tx.ack | _ => none) =
      some true := by decide
theorem test_free_sample :
    (match freeStep { known with freeTimer := some ⟨0, 0⟩ } with | .next t => some t.pc.freeCount | _ => none) =
      some 1 ∧
    (match freeStep { known with freeTimer := some ⟨0, 0⟩, envLow := true } with
      | .next t => some t.pc.freeCount | _ => none) = some 0 := by decide
theorem test_schedule_of_poll :
    idealSchedule [0x44] =
      [(0, .low), (3700, .rel), (4500, .low), (6000, .rel), (6900, .low), (7500, .rel), (9300, .low), (10800, .rel),
        (11700, .low), (13200, .rel), (14100, .low), (15600, .rel), (16500, .low), (17100, .rel), (18900, .low),
        (20400, .rel), (21300, .low), (22800, .rel)] ++
      [(23700, .low), (24300, .rel), (26100, .low), (26700, .rel), (27150, .smp), (28500, .fin)] := by decide

/-! ### Allocation and EDID -/

theorem test_alloc :
    (allocRun [false, false, false, false] (allocStart State.reset)).pc.la = some 0x4 ∧
    (allocRun [true, true, false, false] (allocStart State.reset)).pc.la = some 0xB ∧
    (allocRun [true, true, true, true] (allocStart State.reset)).pc.la = some 0xF ∧
    (allocRun [true, true, true, true] (allocStart State.reset)).logq = [⟨0, .alloc, .addressExhausted⟩] := by decide

/-- The spec's reference image REF (95_test_vectors.md E5). -/
def edidRef : List Byte :=
  [0x00, 0xFF, 0xFF, 0xFF, 0xFF, 0xFF, 0xFF, 0x00] ++ List.replicate 119 0x00 ++ [0x06] ++
  [0x02, 0x03, 0x0A, 0x00, 0x65, 0x03, 0x0C, 0x00, 0x20, 0x10] ++ List.replicate 117 0x00 ++ [0x4D]

set_option maxRecDepth 20000 in
theorem test_edid_reference : parse edidRef = .address 0x1020 := by decide
set_option maxRecDepth 20000 in
theorem test_edid_checks :
    parse (edidRef.set 20 0x01) = .failed .edidBaseChecksum ∧ parse (edidRef.set 255 0x4E) = .failed .edidExtChecksum ∧
    parse ((edidRef.set 1 0xFE).set 127 0x07) = .failed .edidHeaderErr ∧
    parse ((edidRef.set 128 0x03).set 255 0x4C) = .failed .edidNoCta := by decide
set_option maxRecDepth 20000 in
theorem test_edid_block_overruns : parse ((edidRef.set 130 0x09).set 255 0x4E) = .failed .edidNoVsdb := by decide

/-! ### Witnesses for the hypotheses of the obligations -/

/-- A receive that is waiting with nothing else going on. -/
def idleBus : State :=
  { rxAt .awaitStart .falling 0 with edgePending := none, rx := { (rxAt .awaitStart .falling 0).rx with tref := none } }

theorem witness_halfDuplexBreachFaults :
    let s := txAt .dataLow 0 7
    (s.tx.phase ≠ .idle ∧ { s with edgeArmed := true }.edgeArmed = true) ∧
    (∀ ph ∈ [RxPhase.awaitStart, .ackHigh], ph ≠ .idle ∧ ph ≠ .done ∧ ph ≠ .abort) := by decide
theorem witness_stepKeepsDisciplineAndNeverFaults :
    State.reset.disciplined = true ∧ idleBus.disciplined = true ∧ (rxAt .dataLow .rising 600).disciplined = true ∧
    (txAt .dataLow 0 7).disciplined = true ∧ (known.withFrame [0x14, 0x8F]).disciplined = true := by decide
theorem witness_stepRunsDecodedInstruction :
    let s := known.withFrame [0x14, 0x8F]
    s.halfDuplexBroken = false ∧ s.pc.point = .dispatch ∧ s.pc.op = .run ∧ s.rx.len = some 2 ∧
      decode (s.rx.buf.bytes 2) = .message (.giveDevicePowerStatus ⟨0x1, 0x4⟩ []) := by decide
theorem witness_placedWordIsRunNext :
    decodeTableWord 16 0x148F = some (.giveDevicePowerStatus ⟨0x1, 0x4⟩ []) ∧
    (decodeTableWord 128 0x148F).isSome = true := by decide
theorem witness_decodeOfEncode :
    (Instr.poll ⟨0x0, 0xF⟩).wellFormed = true ∧ (Instr.abort ⟨0xF, 0x0⟩ (List.replicate 14 0xFF)).wellFormed = true ∧
    (Instr.unnamedOpcode 0x00 ⟨0x0, 0x4⟩ []).wellFormed = true := by decide
theorem witness_decodeIsTotalOnFrames :
    (1 ≤ [0x44#8].length ∧ [0x44#8].length ≤ 16) ∧ (List.replicate 16 0x44#8).length ≤ 16 ∧
    16 < (List.replicate 17 0x44#8).length ∧ decode [0x44] = .message (.poll ⟨0x4, 0x4⟩) := by decide
theorem witness_dispatchIsTheTableOnBytes :
    (1 ≤ [0x44#8].length ∧ (List.replicate 16 0x44#8).length ≤ 16) ∧ known.pc.la = some 0x4 := by decide
theorem witness_unicastRequestsAreAnswered :
    known.pc.la = some 0x4 ∧ (⟨0x1, 0x4⟩ : Header).dst = 0x4 ∧ (⟨0x1, 0xF⟩ : Header).dst ≠ 0x4 := by decide
theorem witness_routingMessagesAreAnswered :
    known.pc.la = some 0x4 ∧
    (let ops : List Byte := [0x00, 0x00, 0x10, 0x20]
     4 ≤ ops.length ∧ known.pc.pa ≠ 0x0000 ∧ ops.getD 2 0 ++ ops.getD 3 0 = known.pc.pa) ∧
    (let ops : List Byte := [0x10, 0x20]
     2 ≤ ops.length ∧ ops.getD 0 0 ++ ops.getD 1 0 = known.pc.pa) := by decide
theorem witness_requestsBeforeAllocationFault :
    let s : State := { known with pc := { known.pc with la := none } }
    let ops : List Byte := [0x10, 0x20, 0x10, 0x20]
    s.pc.la = none ∧ s.pc.pa ≠ 0x0000 ∧ 4 ≤ ops.length ∧ ops.getD 2 0 ++ ops.getD 3 0 = s.pc.pa ∧
      ops.getD 0 0 ++ ops.getD 1 0 = s.pc.pa := by decide
theorem witness_announcementBeforeAllocationFaults :
    let s (op : PcOp) : State := { State.reset with pc := { State.reset.pc with point := .announce, op := op } }
    (s .run).pc.la = none ∧ (s .run).pc.point = .announce ∧ (s .run).pc.op = .run ∧ (s .announce).pc.op = .announce := by
  decide
theorem witness_instructionFrame :
    (∃ t, exec (.standby ⟨0x0, 0x4⟩ []) State.reset = .next t) ∧
    ∃ t, exec (.giveDevicePowerStatus ⟨0x1, 0x4⟩ []) known = .next t := ⟨⟨_, rfl⟩, _, rfl⟩
theorem witness_dispatchDependsOnAddressesOnly :
    let s : State := { idleBus with clock := 7 }
    known.pc.la = s.pc.la ∧ known.pc.pa = s.pc.pa ∧ known ≠ s ∧ dispatched [0x0F, 0x86, 0x10, 0x20] known ≠ none := by
  decide
theorem witness_dispatchActionLists :
    (∃ t, exec (.deviceVendorId ⟨0x0, 0xF⟩ []) known = .next t ∧ Action.reannounce ∈ t.pc.actions) ∧
    ∃ t, exec (.giveDevicePowerStatus ⟨0x1, 0x4⟩ []) known = .next t ∧
      Action.send [0x41, 0x90, 0x00] ∈ t.pc.actions :=
  ⟨⟨_, rfl, by decide⟩, _, rfl, by decide⟩

/-- What every receiver statement asks of `rxAt`. -/
def readyFor (ph : RxPhase) (p : Polarity) (d : Nat) : Bool :=
  let s := rxAt ph p d
  s.rx.phase == ph && s.edgeIs p && s.rx.tref == some 0 && s.rx.target == some 0x4 && s.notifySlot.isNone &&
    (s.clock - 0).toNat == d

theorem witness_startBitEdges :
    readyFor .awaitStart .rising 500 = true ∧ readyFor .awaitStart .falling 123 = true ∧
    [3499, 3500, 3900, 3901].all (readyFor .startLow .rising) = true ∧
    [4299, 4300, 4700, 4701].all (readyFor .startHigh .falling) = true := by decide
theorem witness_dataBitEdges :
    [399, 400, 800, 801, 1299, 1300, 1700, 1701].all (readyFor .dataLow .rising) = true ∧
    [2049, 2050, 2750, 2751].all (readyFor .dataHigh .falling) = true ∧
    (rxAt .dataHigh .falling 2050).rx.bit.val ≠ 0 := by decide
theorem witness_eomBitEdgesAndAckDrive :
    [399, 400, 800, 801, 1299, 1300, 1700, 1701].all (readyFor .eomLow .rising) = true ∧
    [2049, 2050, 2750, 2751].all (readyFor .eomHigh .falling) = true := by decide
theorem witness_ackBitEdges :
    [399, 400, 800, 801, 1299, 1300, 1700, 1701].all (readyFor .ackLow .rising) = true ∧
    [2049, 2050, 2750, 2751].all (readyFor .ackHigh .falling) = true := by decide
theorem witness_wrongPolarityAborts :
    [RxPhase.startLow, .dataLow, .eomLow, .ackLow].all (readyFor · .falling 700) = true ∧
    [RxPhase.startHigh, .dataHigh, .eomHigh, .ackHigh].all (readyFor · .rising 700) = true := by decide
theorem witness_everyAbortIsPrecise :
    let s := rxAt .startLow .rising 3000
    s.rx.phase ≠ .abort ∧ phaseAfter s = some (.abort, 1) := by decide
theorem witness_handlerArmsUnlessEnded :
    (rxAt .startLow .rising 3700).edgePending.isSome = true ∧ ∃ t, rxStep (rxAt .startLow .rising 3700) = .next t :=
  ⟨rfl, _, rfl⟩

/-- A receiver that is driving the ACK slot, its release due now. -/
def ackDriven : State :=
  { idleBus with
    rx := { idleBus.rx with phase := .ackLow, tref := some 2400, ackActive := true }
    rxDrive := true, rxaTimer := some ⟨3900, 2400⟩, clock := 3900 }

theorem witness_ackReleaseStep :
    ackDriven.fires ackDriven.rxaTimer = true ∧
    (ackDriven.rxDrive = true ∧ ackDriven.txDrive = false ∧ ackDriven.envLow = false ∧ ackDriven.edgeArmed = true ∧
      ackDriven.edgePending = none) ∧
    { ackDriven with envLow := true }.envLow = true := by decide
theorem witness_receiverReadsBackTransmittedFrame :
    (1 ≤ [0x44#8].length ∧ (List.replicate 16 0x44#8).length ≤ 16) ∧ (∀ k < 100, (fun _ => 200) k ≤ 200) ∧
    idleBus.rx.phase = .awaitStart ∧ idleBus.rx.target = some 0x4 ∧ idleBus.rx.buf.wf = true ∧
    idleBus.notifySlot = none := by decide
/-- For StartBitCallbacks, DataBitCallbacks, EomBitCallbacks, AckSlotCallbacks and DoneCallbackNotifies. -/
theorem witness_transmitterCallbacks :
    [TxPhase.startLow, .startHigh, .dataLow, .dataHigh, .eomLow, .eomHigh, .ackLow, .ackHigh, .ackWait, .done].all
      (fun ph =>
        let s := txAt ph 2 0
        s.txTimer == some ⟨0, 0⟩ && s.fires s.txTimer && !s.edgeArmed && s.tx.len == some 3 && s.tx.phase == ph &&
          s.notifySlot.isNone) = true := by decide
theorem witness_transmitterNeverAborts :
    let s := txAt .done 2 0
    s.fires s.txTimer = true ∧ s.tx.phase ≠ .idle ∧ s.tx.len.isSome = true ∧ s.notifySlot = none := by decide
theorem witness_sendFollowsIdealSchedule :
    (1 ≤ [0x44#8].length ∧ (List.replicate 16 0x44#8).length ≤ 16) ∧ known.tx.frame.wf = true ∧
    known.txDrive = false ∧ known.notifySlot = none ∧ ∃ t, sendLaunch .poll [0x44] known = .next t :=
  ⟨by decide, rfl, rfl, rfl, _, rfl⟩
theorem witness_busFreeSample :
    let s : State := { known with freeTimer := some ⟨2400, 0⟩, clock := 2400, pc := { known.pc with freeCount := 6 } }
    s.freeTimer = some ⟨2400, 0⟩ ∧ s.fires s.freeTimer = true ∧ s.pc.freeCount.val < 7 := by decide
theorem witness_sendStartsAndLaunches :
    (([] : List Byte).length = 0 ∧ 16 < (List.replicate 17 0x44#8).length ∧ 1 ≤ [0x44#8].length ∧
      (List.replicate 16 0x44#8).length ≤ 16) ∧
    (known.tx.phase = .idle ∧ known.notifySlot = none ∧ known.edgeArmed = false ∧ known.rx.ackActive = false) ∧
    ((txAt .dataLow 0 7).tx.phase ≠ .idle ∧ idleBus.edgeArmed = true ∧ ackDriven.rx.ackActive = true ∧
      { known with notifySlot := some (.txDone true) }.notifySlot ≠ none) ∧
    let s (c : Fin 8) : State := { known with pc := { known.pc with op := .freeWait .poll [0x44], freeCount := c } }
    (s 6).pc.op = .freeWait .poll [0x44] ∧ (s 6).pc.freeCount.val < 7 ∧ (s 7).pc.freeCount.val = 7 ∧
      (s 7).tx.frame.wf = true := by decide
theorem witness_sendWaitsForTxDone :
    (txAt .dataLow 0 7).pc.op = .sending .reply ∧ (∀ a, (txAt .dataLow 0 7).notifySlot ≠ some (.txDone a)) ∧
    { txAt .done 2 0 with notifySlot := some (.txDone true) }.notifySlot = some (.txDone true) := by decide
theorem witness_receiveStartResets :
    let s : State := { known with pc := { known.pc with point := .receive } }
    (s.pc.point = .receive ∧ s.pc.op = .run) ∧
    (s.tx.phase = .idle ∧ s.notifySlot = none ∧ s.rx.ackActive = false ∧ s.pc.la = some 0x4) ∧
    State.reset.pc.la = none ∧ (txAt .dataLow 0 7).tx.phase ≠ .idle := by decide
theorem witness_receiveReturns :
    idleBus.pc.op = .receiving ∧ idleBus.notifySlot = none ∧
    ({ idleBus with notifySlot := some (.txDone true) } : State).notifySlot = some (.txDone true) ∧
    ({ idleBus with notifySlot := some (.rxDone 0) } : State).notifySlot = some (.rxDone 0) ∧
    ({ idleBus with notifySlot := some (.rxDone 16) } : State).notifySlot = some (.rxDone 16) := by decide
/-- R383, R384, R510: the move `pc` leaves a receive alone that has not ended, and one that holds a send's result. -/
theorem test_receive_waits_then_returns :
    takeMove .pc idleBus = .next idleBus ∧
    (let s : State := { idleBus with notifySlot := some (.txDone true) }
     takeMove .pc s = .next s) ∧
    (match takeMove .pc { idleBus with notifySlot := some (.rxDone 2) } with
      | .next t => t.pc.point == .dispatch && t.notifySlot.isNone
      | _ => false) = true := ⟨rfl, rfl, by decide⟩
theorem witness_idleBusKeepsWaiting :
    idleBus.quiescent = true ∧ idleBus.edgePending = none ∧ Move.wait 1000 ≠ .env true ∧ Move.env false ≠ .env true := by
  decide
theorem witness_runEndsAtFirstQuietState :
    ({ idleBus with schedule := [.wait 5, .rx] }.runEnded = true ∧ idleBus.edgePending = none) ∧
    endOfRun 3 { idleBus with schedule := [.host, .wait 5] } = some { idleBus with schedule := [.wait 5] } := by decide
/-- R665: an action of the script that is still to come keeps the run going; so does a line held low. -/
theorem test_run_goes_on_while_the_script_does :
    { idleBus with schedule := [.wait 5, .env true] }.quiescent = true ∧
    { idleBus with schedule := [.wait 5, .env true] }.runEnded = false ∧
    endOfRun 2 { idleBus with schedule := [.wait 5, .env true] } = none := by decide
theorem witness_modelFaultsStopTheStep :
    let full (s : State) : State := { s with notifySlot := some (.rxDone 0) }
    let untimed (ph : RxPhase) (p : Polarity) : State :=
      { rxAt ph p 2400 with rx := { (rxAt ph p 2400).rx with tref := none } }
    let unsized : State := { txAt .eomLow 0 0 with tx := { (txAt .eomLow 0 0).tx with len := none } }
    (known.notifySlot = none ∧ (full known).notifySlot ≠ none) ∧
    ((∃ t, rxStep { full (rxAt .startLow .rising 3000) with notifySlot := none } = .next t ∧ t.notifySlot ≠ none) ∧
      ∃ t, txStep { full (txAt .done 2 0) with notifySlot := none } = .next t ∧ t.notifySlot ≠ none) ∧
    (let s (n : Option (Fin 17)) : State :=
      { known with rx := { known.rx with len := n }, pc := { known.pc with point := .dispatch } }
     (s none).halfDuplexBroken = false ∧ (s none).pc.point = .dispatch ∧ (s none).pc.op = .run ∧
      (s none).rx.len = none ∧ (s (some 0)).rx.len = some 0) ∧
    ([RxPhase.startLow, .dataLow, .eomLow, .ackLow].all fun ph =>
      (untimed ph .rising).rx.tref.isNone && (untimed ph .rising).rx.phase == ph &&
        (untimed ph .rising).edgeIs .rising) = true ∧
    ([RxPhase.startHigh, .dataHigh, .eomHigh, .ackHigh].all fun ph =>
      (untimed ph .falling).rx.tref.isNone && (untimed ph .falling).rx.phase == ph &&
        (untimed ph .falling).edgeIs .falling) = true ∧
    (let s : State := { rxAt .eomHigh .falling 2750 with rx := { (rxAt .eomHigh .falling 2750).rx with target := none } }
     s.rx.tref = some 0 ∧ (s.clock - 0).toNat = 2750 ∧ s.rx.target = none ∧ s.edgeIs .falling = true) ∧
    unsized.fires unsized.txTimer = true ∧ unsized.tx.len = none ∧ unsized.tx.phase = .eomLow :=
  ⟨by decide, ⟨⟨_, rfl, by decide⟩, _, rfl, by decide⟩, by decide, by decide, by decide, by decide, by decide⟩

/-- PC at ACT with these actions. -/
def acting (as : List Action) : State := { known with pc := { known.pc with point := .act, actions := as } }

theorem witness_actExecutesInOrder :
    ((acting []).pc.point = .act ∧ (acting []).pc.op = .run ∧ (acting []).pc.actions = []) ∧
    (acting [.send [0x40, 0x04]]).pc.actions = .send [0x40, 0x04] :: [] ∧
    (acting [.key 0x52]).pc.actions = .key 0x52 :: [] ∧
    (acting [.log .addressExhausted]).pc.actions = .log .addressExhausted :: [] ∧
    (acting [.reannounce]).pc.actions = .reannounce :: [] ∧
    (let at' (op : PcOp) (i : Fin 4) : State :=
      { acting [] with
        pc := { (acting []).pc with op := op, allocI := i }, notifySlot := some (.txDone (i == 3)) }
     (at' .resolving 0).pc.op = .resolving ∧ (at' .announce 0).pc.la = some 0x4 ∧
      ((at' (.sending .poll) 0).notifySlot = some (.txDone false)) ∧
      ((at' (.sending .poll) 3).notifySlot = some (.txDone true) ∧ (at' (.sending .poll) 3).pc.allocI.val = 3) ∧
      (at' (.sending .announce) 3).pc.op = .sending .announce ∧ (at' (.sending .reply) 3).pc.op = .sending .reply) := by
  decide
theorem witness_keyChannel :
    known.keyq.length < Config.keyqDepth ∧ Config.keyqDepth ≤ (List.replicate Config.keyqDepth 0x00#8).length ∧
    { known with pc := { known.pc with op := .keying 0x52 3 } }.pc.op = .keying 0x52 3 :=
  ⟨by simp [known, State.reset, Config.keyqDepth], by simp, rfl⟩
/-- A full channel before KEYQ_WAIT has passed, for every KEYQ_WAIT that is a wait at all. -/
theorem witness_keyWaits (h : 0 < Config.keyqWait) :
    let s : State :=
      { known with
        pc := { known.pc with op := .keying 0x52 0 }, keyq := List.replicate Config.keyqDepth 0x00 }
    s.pc.op = .keying 0x52 0 ∧ s.pcReady = false := by
  refine ⟨rfl, Bool.or_eq_false_iff.2 ⟨?_, decide_eq_false (Nat.not_le.2 h)⟩⟩
  simp [State.keyRoom]

/-- PC at this place of its program, nothing else going on. -/
def placed (l : Point) (op : PcOp) (slot : Option Notification) : State :=
  { known with pc := { known.pc with point := l, op := op }, notifySlot := slot }

theorem witness_startupOrder :
    ([Point.boot, .resolve, .alloc, .announce].all fun l =>
      (placed l .run none).pc.point == l && (placed l .run none).pc.op == .run) = true ∧
    (placed .announce .run none).pc.la = some 0x4 ∧
    ((placed .resolve .resolving none).pc.op = .resolving ∧ (placed .resolve .resolving none).pc.point = .resolve) ∧
    (placed .alloc .poll none).pc.op = .poll ∧
    (let s := placed .alloc (.sending .poll) (some (.txDone true))
     s.pc.op = .sending .poll ∧ s.pc.point = .alloc ∧ s.notifySlot = some (.txDone true) ∧ s.pc.allocI.val < 3 ∧
      { s with pc := { s.pc with allocI := 3 } }.pc.allocI.val = 3) ∧
    (placed .announce (.sending .announce) (some (.txDone true))).notifySlot = some (.txDone true) := by decide
theorem witness_pollResult :
    let s (i : Fin 4) : State :=
      { placed .alloc (.sending .poll) (some (.txDone true)) with pc := { known.pc with op := .sending .poll, allocI := i } }
    (s 2).pc.op = .sending .poll ∧ (s 2).notifySlot = some (.txDone true) ∧ (s 2).pc.allocI.val < 3 ∧
      (s 3).pc.allocI.val = 3 ∧ { s 0 with notifySlot := some (.txDone false) }.notifySlot = some (.txDone false) := by
  decide
set_option maxRecDepth 20000 in
theorem witness_resolveWritesWholeResult :
    let s := placed .resolve .resolving none
    let answered (r : EdidAnswer) : State := { s with edidRsp := some r }
    (s.pc.op = .resolving ∧ s.pcReady = false) ∧ (answered .busError).pcReady = true ∧
    (answered (.ok [0x00])).pcReady = true ∧ [0x00#8].length ≠ 256 ∧ edidRef.length = 256 ∧
    parse edidRef = .address 0x1020 ∧ parse (edidRef.set 20 0x01) = .failed .edidBaseChecksum := by decide
/-- The timeout without an answer, for every EDID_TIMEOUT that the clock can measure. -/
theorem witness_resolveTimesOut (h : Config.edidTimeout < 2 ^ 64) :
    let s : State :=
      { placed .resolve .resolving none with
        edidReq := some ⟨0x50, 0⟩, clock := BitVec.ofNat 64 Config.edidTimeout }
    s.pc.op = .resolving ∧ s.edidRsp = none ∧ s.pcReady = true := by
  refine ⟨rfl, rfl, decide_eq_true ?_⟩
  show Config.edidTimeout ≤ (BitVec.ofNat 64 Config.edidTimeout - 0#64).toNat
  rw [BitVec.sub_zero, BitVec.toNat_ofNat, Nat.mod_eq_of_lt h]
set_option maxRecDepth 20000 in
theorem witness_parseChecksInOrder :
    let baseOk (e : List Byte) : Prop := ((e.take 128).map BitVec.toNat).sum % 256 = 0
    let extOk (e : List Byte) : Prop := ((e.drop 128).map BitVec.toNat).sum % 256 = 0
    let headerOk (e : List Byte) : Prop := e.take 8 = [0x00, 0xFF, 0xFF, 0xFF, 0xFF, 0xFF, 0xFF, 0x00]
    let ctaOk (e : List Byte) : Prop := e[128]? = some 0x02#8 ∧ e[129]? = some 0x03#8
    let badHeader := (edidRef.set 1 0x01).set 2 0xFD
    let badCta := (edidRef.set 128 0x03).set 129 0x02
    edidRef.length = 256 ∧ (baseOk edidRef ∧ extOk edidRef ∧ headerOk edidRef ∧ ctaOk edidRef) ∧
      ¬ baseOk (edidRef.set 20 0x01) ∧ ¬ extOk (edidRef.set 255 0x4E) ∧
      (baseOk badHeader ∧ extOk badHeader ∧ ¬ headerOk badHeader) ∧
      baseOk badCta ∧ extOk badCta ∧ headerOk badCta ∧ ¬ ctaOk badCta := by decide
theorem witness_scanTakesFirstHdmiBlock : 4 ∈ blockChain edidRef 128 4 ∧ 128 ≤ 128 := by decide
set_option maxRecDepth 20000 in
theorem witness_corruptBaseByteFailsParse :
    edidRef.length = 256 ∧ parse edidRef = .address 0x1020 ∧ 127 < 128 ∧ edidRef[127]? ≠ some 0x05#8 ∧
    edidRef[0]? ≠ some 0xFF#8 := by decide
theorem witness_lineEdgesAreDelivered :
    (known.driveEnv true).line ≠ known.line ∧ (known.driveEnv false).line = known.line ∧
    (idleBus.edgeArmed = true ∧ idleBus.edgePending = none ∧ (idleBus.driveEnv true).line ≠ idleBus.line) ∧
    (let s : State := { known with edidReq := some ⟨0x50, 0⟩, keyq := [0x52] }
     s.edidReq ≠ none ∧ s.edidRsp = none ∧ s.keyq = 0x52 :: []) ∧
    known.edidReq = none ∧ { known with edidRsp := some .busError }.edidRsp ≠ none ∧ known.keyq = [] := by decide
theorem witness_movesAndSteps :
    (known.halfDuplexBroken = false ∧ known.pc.op = .run) ∧
    (idleBus.halfDuplexBroken = false ∧ idleBus.pc.op ≠ .run ∧ idleBus.pc.op ≠ .poll ∧ idleBus.pc.op ≠ .announce) ∧
    { idleBus with schedule := [.rx, .tx] }.schedule = .rx :: [.tx] ∧ idleBus.schedule = [] ∧
    known.pcReady = true ∧ idleBus.pcReady = false := by decide
/-- R565: the move `rx` takes a pending edge: the first falling edge of a start bit (R245). -/
theorem test_move_rx :
    (match step { rxAt .awaitStart .falling 10 with schedule := [.rx] } with
      | .next t => t.rx.phase == .startLow && t.edgePending.isNone
      | _ => false) = true := by decide
theorem witness_timePassesWithinLatencies :
    (ackDriven.rxaTimer = some ⟨3900, 2400⟩ ∧ atOrAfter ackDriven.clock (⟨3900, 2400⟩ : Alarm).ready = true ∧
      (ackDriven.clock - (⟨3900, 2400⟩ : Alarm).ready).toNat ≤ Config.latTimer) ∧
    (let s : State := { ackDriven with clock := 3899 }
     atOrAfter s.clock (⟨3900, 2400⟩ : Alarm).ready = false ∧
      atOrAfter (s.timePasses 1).clock (⟨3900, 2400⟩ : Alarm).ready = true) ∧
    ((rxAt .startLow .rising 3700).edgePending = some ⟨.rising, 3700⟩ ∧
      ((rxAt .startLow .rising 3700).clock - 3700).toNat ≤ Config.latEdge) ∧
    (let s : State := { placed .resolve .resolving none with edidReq := some ⟨0x50, 0⟩ }
     s.pc.op = .resolving ∧ s.edidReq = some ⟨0x50, 0⟩ ∧ (s.clock - 0).toNat ≤ Config.edidTimeout) ∧
    (let s := placed .act (.keying 0x52 0) none
     s.pc.op = .keying 0x52 0 ∧ (s.clock - 0).toNat ≤ Config.keyqWait) ∧
    State.reset.pcReady = true ∧
    idleBus.pc.op = .receiving ∧ idleBus.pcReady = false ∧ idleBus.edgePending = none ∧ idleBus.txTimer = none ∧
      idleBus.rxaTimer = none ∧ idleBus.freeTimer = none :=
  ⟨⟨rfl, by decide, Nat.zero_le _⟩, ⟨by decide, by decide⟩, ⟨rfl, Nat.zero_le _⟩, ⟨rfl, rfl, Nat.zero_le _⟩,
    ⟨rfl, Nat.zero_le _⟩, rfl, rfl, rfl, rfl, rfl, rfl, rfl⟩
theorem witness_timersNotDue :
    known.fires known.rxaTimer = false ∧ known.fires known.txTimer = false ∧ known.fires known.freeTimer = false ∧
    { ackDriven with clock := 3899 }.fires { ackDriven with clock := 3899 }.rxaTimer = false ∧
    ackDriven.clock.toNat < 2 ^ 63 ∧ (3900#64).toNat < 2 ^ 63 ∧ (2400#64).toNat < 2 ^ 63 := by decide
/-- R103, R572: a timer armed before its due time fires from the due time on, one armed late from when it was armed. -/
theorem test_timer_fires_from_due :
    ([(2399, ⟨2400, 0⟩, false), (2400, ⟨2400, 0⟩, true), (2500, ⟨2400, 2600⟩, false), (2600, ⟨2400, 2600⟩, true)].all
      fun (v : Nat × Alarm × Bool) => { known with clock := micros v.1 }.fires (some v.2.1) == v.2.2) = true := by decide
theorem witness_onlyWaitsMoveTheClock :
    (∃ t, step { idleBus with schedule := [.wait 5] } = .next t ∧ t.clock = 5) ∧
    ∃ t, step State.reset = .next t ∧ t.clock = State.reset.clock := ⟨⟨_, rfl, by decide⟩, _, rfl, rfl⟩
theorem witness_logOnlyGrows :
    ∃ t, step { rxAt .startLow .rising 3000 with schedule := [.rx] } = .next t ∧ t.logq ≠ [] := ⟨_, rfl, by decide⟩
theorem witness_agentsWriteOnlyTheirOwn :
    (∃ t, rxStep (rxAt .startLow .rising 3700) = .next t) ∧ (∃ t, rxaStep ackDriven = .next t) ∧
    ∃ t, txStep (txAt .dataLow 0 7) = .next t := ⟨⟨_, rfl⟩, ⟨_, rfl⟩, _, rfl⟩
theorem witness_addressesChangeBetweenOperations :
    let s : State :=
      { State.reset with
        pc := { State.reset.pc with point := .alloc, op := .sending .poll }
        notifySlot := some (.txDone false), schedule := [.pc] }
    s.disciplined = true ∧ ∃ t, step s = .next t ∧ t.pc.la ≠ s.pc.la := ⟨by decide, _, rfl, by decide⟩

end Sys2Proof.Tests
end

section
/-! PROOFS. The constraints of R15 to R17 on the OPEN parameters, each met by the way the model builds the parameter
from free constants (log 3), so for every value of those constants. -/

namespace Sys2Proof.Config

/-- R16: a keycode lies 1 to 255 above NO_KEY modulo 256, so it never comes round to NO_KEY. -/
theorem keycode_ne_noKey (o : Fin 255) : keycode o ≠ noKey := by
  have ho : o.val < 255 := o.isLt
  unfold keycode
  bv_omega

theorem keyUp_ne_noKey : keyUp ≠ noKey := keycode_ne_noKey keyUpOffset

@[simp] theorem keymap_one : keymap 0x01#8 = some keyUp := rfl

theorem keymap_of_ne_one {u : Byte} (hu : u ≠ 0x01#8) : keymap u = (keymapOffset u).map keycode := if_neg hu

/-- R16: every keycode in KEYMAP differs from NO_KEY. -/
theorem keymap_ne_noKey (u : Byte) : keymap u ≠ some noKey := by
  by_cases hu : u = 0x01#8
  · subst hu
    simpa using keyUp_ne_noKey
  · simp [keymap_of_ne_one hu, keycode_ne_noKey]

/-- R15: OSD_NAME is one byte and at most 13 more. -/
theorem osdName_length : osdName.length = min 13 osdNameTail.length + 1 := by
  simp [osdName]

theorem one_le_osdName_length : 1 ≤ osdName.length := by
  simp [osdName_length]

theorem osdName_length_le : osdName.length ≤ 14 := by
  have htail : min 13 osdNameTail.length ≤ 13 := min_le_left _ _
  rw [osdName_length]
  omega

theorem one_le_keyqDepth : 1 ≤ keyqDepth := Nat.le_add_left 1 keyqDepthLessOne

end Sys2Proof.Config

namespace Sys2Proof.Proofs

open Sys2Proof.Config

/-- Settles O60: a keycode is counted from NO_KEY + 1 over 255 offsets, and OSD_NAME and KEYQ_DEPTH are cut to their
bounds where they are defined. -/
theorem openParametersMeetTheirConstraints : Obligations.OpenParametersMeetTheirConstraints :=
  ⟨⟨keymap_ne_noKey, one_le_osdName_length, osdName_length_le, one_le_keyqDepth⟩, keymap_one⟩

end Sys2Proof.Proofs
end

section
/-! PROOFS. What a step may write, said once for each agent as a relation between the state before and the state after,
and carried through the model's rules as a claim about every next state a result answers. -/

namespace Sys2Proof.Machine

variable {s m t : State} {P Q : State → Prop} {r : Result}

/-! ### What holds of every next state a result answers -/

/-- Whatever next state the result answers has the property; a fault or a refusal answers none. -/
def Answers (P : State → Prop) (r : Result) : Prop := ∀ t, r = .next t → P t

@[simp] theorem answers_next : Answers P (.next s) ↔ P s := by simp [Answers]

@[simp] theorem answers_fault (f : Fault) : Answers P (.fault f) := fun _ h => nomatch h

@[simp] theorem answers_refused (e : Refusal) : Answers P (.refused e) := fun _ h => nomatch h

theorem Answers.mono (h : Answers P r) (hPQ : ∀ t, P t → Q t) : Answers Q r := fun t ht => hPQ t (h t ht)

theorem answers_andThen {k : State → Result} (hr : Answers P r) (hk : ∀ m, P m → Answers Q (k m)) :
    Answers Q (andThen r k) := by
  intro t ht
  obtain ⟨m, hm, hkm⟩ := andThen_eq_next.1 ht
  exact hk m (hr m hm) t hkm

theorem answers_notify {v : Notification} (h : P { s with notifySlot := some v }) : Answers P (notify v s) := by
  intro t ht
  obtain ⟨-, rfl⟩ := notify_eq_next.1 ht
  exact h

theorem answers_withInterval {k : Time → Result} (h : ∀ d, Answers P (k d)) : Answers P (withInterval s k) := by
  unfold withInterval
  split
  · exact answers_fault _
  · exact h _

theorem answers_withTxLen {k : Fin 17 → Result} (h : ∀ n, Answers P (k n)) : Answers P (withTxLen s k) := by
  unfold withTxLen
  split
  · exact answers_fault _
  · exact h _

theorem answers_withLa {k : LogicalAddr → Result} (h : ∀ la, Answers P (k la)) : Answers P (withLa s k) := by
  unfold withLa
  split
  · exact answers_fault _
  · exact h _

/-! ### The receiver: RX (R240) -/

/-- What an RX step keeps: the transmitter, the protocol context, the other drivers, the other timers and the key
channel; the log only grows. -/
structure KeptByRx (s t : State) : Prop where
  tx : t.tx = s.tx
  pc : t.pc = s.pc
  txDrive : t.txDrive = s.txDrive
  envLow : t.envLow = s.envLow
  txTimer : t.txTimer = s.txTimer
  freeTimer : t.freeTimer = s.freeTimer
  keyq : t.keyq = s.keyq
  log : s.logq <+: t.logq

theorem KeptByRx.trans (h : KeptByRx s m) (h' : KeptByRx m t) : KeptByRx s t where
  tx := h'.tx.trans h.tx
  pc := h'.pc.trans h.pc
  txDrive := h'.txDrive.trans h.txDrive
  envLow := h'.envLow.trans h.envLow
  txTimer := h'.txTimer.trans h.txTimer
  freeTimer := h'.freeTimer.trans h.freeTimer
  keyq := h'.keyq.trans h.keyq
  log := h.log.trans h'.log

/-- The receiver's record, slot, edges and observation are its own to write. -/
theorem keptByRx_update (s : State) (rx : Rx) (armed : Bool) (edge : Option Edge) (slot : Option Notification)
    (received : List (List Byte)) :
    KeptByRx s { s with
      rx := rx, edgeArmed := armed, edgePending := edge, notifySlot := slot, framesReceived := received } :=
  ⟨rfl, rfl, rfl, rfl, rfl, rfl, rfl, List.prefix_rfl⟩

theorem keptByRx_rx (s : State) (rx : Rx) : KeptByRx s { s with rx := rx } := keptByRx_update s rx _ _ _ _

theorem keptByRx_refl (s : State) : KeptByRx s s := keptByRx_rx s s.rx

/-- An abort logs one event, in front of which the log stays (R560). -/
theorem raiseAbort_keptByRx (c : Cause) (d : Option Time) (s : State) : Answers (KeptByRx s) (raiseAbort c d s) := by
  intro t ht
  obtain ⟨-, rfl⟩ := raiseAbort_eq_next.1 ht
  exact ⟨rfl, rfl, rfl, rfl, rfl, rfl, rfl, List.prefix_append _ _⟩

theorem keptByRx_ackStart (s : State) : KeptByRx s (ackStart s) := by
  constructor <;> simp [ackStart]

theorem rxStartLowRising_keptByRx (s : State) : Answers (KeptByRx s) (rxStartLowRising s) :=
  answers_withInterval fun d => by
    split
    · exact answers_next.2 (keptByRx_rx _ _)
    · exact raiseAbort_keptByRx _ _ _

theorem rxStartHighFalling_keptByRx (s : State) : Answers (KeptByRx s) (rxStartHighFalling s) :=
  answers_withInterval fun d => by
    split
    · exact answers_next.2 (keptByRx_rx _ _)
    · exact raiseAbort_keptByRx _ _ _

theorem rxDataLowRising_keptByRx (s : State) : Answers (KeptByRx s) (rxDataLowRising s) :=
  answers_withInterval fun d => by
    split
    · exact raiseAbort_keptByRx _ _ _
    · exact answers_next.2 (keptByRx_rx _ _)

theorem rxDataHighFalling_keptByRx (s : State) : Answers (KeptByRx s) (rxDataHighFalling s) :=
  answers_withInterval fun d => by
    split
    · split <;> exact answers_next.2 (keptByRx_rx _ _)
    · exact raiseAbort_keptByRx _ _ _

theorem rxEomLowRising_keptByRx (s : State) : Answers (KeptByRx s) (rxEomLowRising s) :=
  answers_withInterval fun d => by
    split
    · exact raiseAbort_keptByRx _ _ _
    · exact answers_next.2 (keptByRx_rx _ _)

theorem rxEomHighFalling_keptByRx (s : State) : Answers (KeptByRx s) (rxEomHighFalling s) :=
  answers_withInterval fun d => by
    split
    · split
      · exact answers_fault _
      · refine answers_next.2 ?_
        split
        · exact (keptByRx_rx s _).trans (keptByRx_ackStart _)
        · exact keptByRx_rx _ _
    · exact raiseAbort_keptByRx _ _ _

theorem rxAckLowRising_keptByRx (s : State) : Answers (KeptByRx s) (rxAckLowRising s) :=
  answers_withInterval fun d => by
    split
    · split
      · exact answers_notify (keptByRx_update s _ _ _ _ _)
      · exact answers_next.2 (keptByRx_rx _ _)
    · exact raiseAbort_keptByRx _ _ _

theorem rxAckHighFalling_keptByRx (s : State) : Answers (KeptByRx s) (rxAckHighFalling s) :=
  answers_withInterval fun d => by
    split
    · split
      · exact raiseAbort_keptByRx _ _ _
      · exact answers_next.2 (keptByRx_rx _ _)
    · exact raiseAbort_keptByRx _ _ _

/-- Every rule of the receiver, each phase with the polarity it expects and with the other one. -/
theorem rxTransition_keptByRx (p : Polarity) (s : State) : Answers (KeptByRx s) (rxTransition p s) := by
  have nothing : Answers (KeptByRx s) (.next s) := answers_next.2 (keptByRx_refl s)
  have wrong : Answers (KeptByRx s) (rxWrongPolarity s) := raiseAbort_keptByRx _ _ _
  unfold rxTransition
  cases s.rx.phase with
  | idle => exact nothing
  | awaitStart =>
    cases p with
    | falling => exact answers_next.2 (keptByRx_rx _ _)
    | rising => exact nothing
  | startLow => cases p; exacts [wrong, rxStartLowRising_keptByRx s]
  | startHigh => cases p; exacts [rxStartHighFalling_keptByRx s, wrong]
  | dataLow => cases p; exacts [wrong, rxDataLowRising_keptByRx s]
  | dataHigh => cases p; exacts [rxDataHighFalling_keptByRx s, wrong]
  | eomLow => cases p; exacts [wrong, rxEomLowRising_keptByRx s]
  | eomHigh => cases p; exacts [rxEomHighFalling_keptByRx s, wrong]
  | ackLow => cases p; exacts [wrong, rxAckLowRising_keptByRx s]
  | ackHigh => cases p; exacts [rxAckHighFalling_keptByRx s, wrong]
  | done => exact nothing
  | abort => exact nothing

theorem keptByRx_rxEntry (s : State) : KeptByRx s (rxEntry s) := keptByRx_update s _ _ _ _ _

theorem keptByRx_rxExit (s : State) : KeptByRx s (rxExit s) := by
  unfold rxExit
  split
  · exact keptByRx_refl s
  · exact keptByRx_refl s
  · exact keptByRx_update s _ _ _ _ _

theorem rxHandle_keptByRx (p : Polarity) (s : State) : Answers (KeptByRx s) (rxHandle p s) :=
  answers_andThen (rxTransition_keptByRx p (rxEntry s)) fun m hm =>
    answers_next.2 ((keptByRx_rxEntry s).trans (hm.trans (keptByRx_rxExit m)))

theorem rxStep_keptByRx (s : State) : Answers (KeptByRx s) (rxStep s) := by
  unfold rxStep
  split
  · exact answers_next.2 (keptByRx_refl s)
  · exact rxHandle_keptByRx _ s

/-! ### The ACK release: RXA (R262) -/

/-- What an RXA step keeps: all that an RX step keeps, and the log, the slot and the edge enable. -/
structure KeptByRxa (s t : State) : Prop where
  byRx : KeptByRx s t
  logq : t.logq = s.logq
  notifySlot : t.notifySlot = s.notifySlot
  edgeArmed : t.edgeArmed = s.edgeArmed

theorem keptByRxa_rxaRelease (s : State) : KeptByRxa s (rxaRelease s) where
  byRx := by constructor <;> simp [rxaRelease]
  logq := by simp [rxaRelease]
  notifySlot := by simp [rxaRelease]
  edgeArmed := by simp [rxaRelease]

theorem rxaStep_keptByRxa (s : State) : Answers (KeptByRxa s) (rxaStep s) := by
  unfold rxaStep
  split
  · exact answers_next.2 (keptByRxa_rxaRelease s)
  · exact answers_next.2 ⟨keptByRx_refl s, rfl, rfl, rfl⟩

/-! ### The transmitter: TX (R303 to R314) -/

/-- What a TX step keeps: the receiver, the protocol context, the other drivers, the other timers, the key channel,
the log and the edge enable. -/
structure KeptByTx (s t : State) : Prop where
  rx : t.rx = s.rx
  pc : t.pc = s.pc
  rxDrive : t.rxDrive = s.rxDrive
  envLow : t.envLow = s.envLow
  rxaTimer : t.rxaTimer = s.rxaTimer
  freeTimer : t.freeTimer = s.freeTimer
  keyq : t.keyq = s.keyq
  logq : t.logq = s.logq
  edgeArmed : t.edgeArmed = s.edgeArmed

theorem KeptByTx.trans (h : KeptByTx s m) (h' : KeptByTx m t) : KeptByTx s t where
  rx := h'.rx.trans h.rx
  pc := h'.pc.trans h.pc
  rxDrive := h'.rxDrive.trans h.rxDrive
  envLow := h'.envLow.trans h.envLow
  rxaTimer := h'.rxaTimer.trans h.rxaTimer
  freeTimer := h'.freeTimer.trans h.freeTimer
  keyq := h'.keyq.trans h.keyq
  logq := h'.logq.trans h.logq
  edgeArmed := h'.edgeArmed.trans h.edgeArmed

/-- The transmitter's record, timer, slot and observation are its own to write. -/
theorem keptByTx_update (s : State) (tx : Tx) (timer : Option Alarm) (slot : Option Notification)
    (sent : List SentFrame) :
    KeptByTx s { s with tx := tx, txTimer := timer, notifySlot := slot, framesSent := sent } :=
  ⟨rfl, rfl, rfl, rfl, rfl, rfl, rfl, rfl, rfl⟩

theorem keptByTx_refl (s : State) : KeptByTx s s := keptByTx_update s _ _ _ _

theorem keptByTx_tx (s : State) (tx : Tx) : KeptByTx s { s with tx := tx } := keptByTx_update s tx _ _ _

/-- A callback's two writes: it drives the line and goes to another phase. -/
theorem keptByTx_driveTx (s : State) (low : Bool) (tx : Tx) : KeptByTx s { s.driveTx low with tx := tx } := by
  constructor <;> simp

theorem txReturn_keptByTx (a : Alarm) (delay : Nat) (h : KeptByTx s m) : Answers (KeptByTx s) (txReturn a delay m) :=
  answers_next.2 (h.trans (keptByTx_update m _ _ _ _))

theorem txDataHighCallback_keptByTx (a : Alarm) (s : State) : Answers (KeptByTx s) (txDataHighCallback a s) :=
  txReturn_keptByTx _ _ (by split <;> exact keptByTx_driveTx _ _ _)

theorem txAckWaitCallback_keptByTx (a : Alarm) (s : State) : Answers (KeptByTx s) (txAckWaitCallback a s) :=
  answers_withTxLen fun n => txReturn_keptByTx _ _ (by split <;> exact keptByTx_tx _ _)

/-- Every callback of the transmitter, phase by phase. -/
theorem txCallback_keptByTx (a : Alarm) (s : State) : Answers (KeptByTx s) (txCallback a s) := by
  unfold txCallback
  cases s.tx.phase with
  | idle => exact answers_next.2 (keptByTx_refl s)
  | startLow => exact txReturn_keptByTx _ _ (keptByTx_driveTx _ _ _)
  | startHigh => exact txReturn_keptByTx _ _ (keptByTx_driveTx _ _ _)
  | dataLow => exact txReturn_keptByTx _ _ (keptByTx_driveTx _ _ _)
  | dataHigh => exact txDataHighCallback_keptByTx a s
  | eomLow => exact answers_withTxLen fun n => txReturn_keptByTx _ _ (keptByTx_driveTx _ _ _)
  | eomHigh => exact answers_withTxLen fun n => txReturn_keptByTx _ _ (keptByTx_driveTx _ _ _)
  | ackLow => exact txReturn_keptByTx _ _ (keptByTx_driveTx _ _ _)
  | ackHigh => exact txReturn_keptByTx _ _ (keptByTx_driveTx _ _ _)
  | ackWait => exact txAckWaitCallback_keptByTx a s
  | done => exact answers_notify (keptByTx_update s _ _ _ _)

theorem txStep_keptByTx (s : State) : Answers (KeptByTx s) (txStep s) := by
  unfold txStep
  split
  · exact answers_next.2 (keptByTx_refl s)
  · split
    · exact (txCallback_keptByTx _ _).mono fun _ => (keptByTx_update s _ _ _ _).trans
    · exact answers_next.2 (keptByTx_refl s)

/-! ### The outside: ENV, EDID, HOST and time (R580, R670) -/

/-- What the outside keeps: the three records, the block's own drivers, the edge enable, the slot and the log. -/
structure KeptByOutside (s t : State) : Prop where
  rx : t.rx = s.rx
  tx : t.tx = s.tx
  pc : t.pc = s.pc
  rxDrive : t.rxDrive = s.rxDrive
  txDrive : t.txDrive = s.txDrive
  edgeArmed : t.edgeArmed = s.edgeArmed
  notifySlot : t.notifySlot = s.notifySlot
  logq : t.logq = s.logq

theorem keptByOutside_driveEnv (s : State) (low : Bool) : KeptByOutside s (s.driveEnv low) := by
  constructor <;> simp

/-- An answer reaches the block exactly while a transaction is open and not answered (R471). -/
theorem State.edidAnswers_eq (s : State) (r : EdidAnswer) :
    s.edidAnswers r = if s.edidReq ≠ none ∧ s.edidRsp = none then { s with edidRsp := some r } else s := by
  unfold State.edidAnswers
  cases s.edidReq <;> cases s.edidRsp <;> simp

theorem keptByOutside_edidAnswers (s : State) (r : EdidAnswer) : KeptByOutside s (s.edidAnswers r) := by
  rw [State.edidAnswers_eq]
  split <;> exact ⟨rfl, rfl, rfl, rfl, rfl, rfl, rfl, rfl⟩

theorem keptByOutside_hostTakes (s : State) : KeptByOutside s s.hostTakes :=
  ⟨rfl, rfl, rfl, rfl, rfl, rfl, rfl, rfl⟩

theorem keptByOutside_timePasses (s : State) (us : Nat) : KeptByOutside s (s.timePasses us) :=
  ⟨rfl, rfl, rfl, rfl, rfl, rfl, rfl, rfl⟩

end Sys2Proof.Machine

namespace Sys2Proof.Proofs

open Sys2Proof.Machine

/-- Settles O58: each agent's step is one of its rules, and each rule writes only fields of its agent. -/
theorem agentsWriteOnlyTheirOwn : Obligations.AgentsWriteOnlyTheirOwn := by
  intro s t
  refine ⟨fun h => ?_, fun h => ?_, fun h => ?_, fun low r us h => ?_⟩
  · have k := rxStep_keptByRx s t h
    exact ⟨k.tx, k.pc, k.txDrive, k.envLow, k.txTimer, k.freeTimer, k.keyq⟩
  · obtain ⟨k, hlog, hslot, harmed⟩ := rxaStep_keptByRxa s t h
    exact ⟨k.tx, k.pc, k.txDrive, k.envLow, k.txTimer, k.freeTimer, k.keyq, hlog, hslot, harmed⟩
  · have k := txStep_keptByTx s t h
    exact ⟨k.rx, k.pc, k.rxDrive, k.envLow, k.rxaTimer, k.freeTimer, k.keyq, k.logq, k.edgeArmed⟩
  · have k : KeptByOutside s t := by
      obtain rfl | rfl | rfl | rfl := h
      · exact keptByOutside_driveEnv s low
      · exact keptByOutside_edidAnswers s r
      · exact keptByOutside_hostTakes s
      · exact keptByOutside_timePasses s us
    exact ⟨k.rx, k.tx, k.pc, k.rxDrive, k.txDrive, k.edgeArmed, k.notifySlot, k.logq⟩

end Sys2Proof.Proofs
end

section
/-! PROOFS. The log is append-only (R106, R590): PC's operations one by one, then every move and the step. -/

namespace Sys2Proof.Machine

variable {s m t : State}

/-- The log of the state before is the beginning of the log after. -/
def LogGrows (s t : State) : Prop := s.logq <+: t.logq

theorem logGrows_of_eq (h : t.logq = s.logq) : LogGrows s t := by
  unfold LogGrows
  rw [h]

theorem LogGrows.trans (h : LogGrows s m) (h' : LogGrows m t) : LogGrows s t := List.IsPrefix.trans h h'

theorem logGrows_log (s : State) (k : LogKind) (i : LogInfo) : LogGrows s (s.log k i) := List.prefix_append _ _

/-! ### PC's operations -/

theorem sendStart_logGrows (why : SendFor) (f : List Byte) (s : State) : Answers (LogGrows s) (sendStart why f s) := by
  intro t h
  obtain ⟨-, -, rfl⟩ := sendStart_eq_next.1 h
  exact logGrows_of_eq rfl

theorem sendLaunch_logGrows (why : SendFor) (f : List Byte) (s : State) :
    Answers (LogGrows s) (sendLaunch why f s) := by
  unfold sendLaunch
  split
  · exact answers_next.2 (logGrows_of_eq rfl)
  · exact answers_refused _

theorem receiveStart_logGrows (s : State) : Answers (LogGrows s) (receiveStart s) := by
  intro t h
  obtain ⟨-, la, -, rfl⟩ := receiveStart_eq_next.1 h
  exact logGrows_of_eq rfl

theorem announceStart_logGrows (s : State) : Answers (LogGrows s) (announceStart s) :=
  answers_withLa fun _ => sendStart_logGrows _ _ _

@[simp] theorem emitKey_logq (k : Byte) (s : State) : (emitKey k s).logq = s.logq := by
  unfold emitKey
  split <;> rfl

/-- The end of a key's wait keeps the log, or logs the dropped key (R585). -/
theorem logGrows_emitKeyEnd (k : Byte) (s : State) : LogGrows s (emitKeyEnd k s) := by
  unfold emitKeyEnd
  split
  · exact logGrows_of_eq rfl
  · exact logGrows_log (s.atOp .run) _ _

@[simp] theorem afterAlloc_logq (s : State) : (afterAlloc s).logq = s.logq := by
  unfold afterAlloc
  split <;> rfl

@[simp] theorem afterResolve_logq (s : State) : (afterResolve s).logq = s.logq := by
  unfold afterResolve
  split <;> rfl

@[simp] theorem afterAnnounce_logq (s : State) : (afterAnnounce s).logq = s.logq := by
  unfold afterAnnounce
  split <;> rfl

@[simp] theorem receiveResult_logq (n : Fin 17) (s : State) : (receiveResult n s).logq = s.logq := by
  unfold receiveResult
  split <;> rfl

/-- A poll's result is logged only when the last candidate was acknowledged (R515). -/
theorem logGrows_allocResult (acked : Bool) (s : State) : LogGrows s (allocResult acked s) := by
  unfold allocResult
  split
  · split
    · exact logGrows_of_eq rfl
    · exact (logGrows_log s _ _).trans (logGrows_of_eq (afterAlloc_logq _))
  · exact logGrows_of_eq (afterAlloc_logq _)

theorem logGrows_sendResult (why : SendFor) (acked : Bool) (s : State) : LogGrows s (sendResult why acked s) := by
  cases why with
  | poll => exact logGrows_allocResult acked s
  | announce => exact logGrows_of_eq (afterAnnounce_logq s)
  | reply => exact logGrows_of_eq rfl

/-- A resolve is logged when it failed (R490). -/
theorem logGrows_writePa (r : Parsed) (s : State) : LogGrows s (writePa r s) := by
  cases r with
  | address pa => exact logGrows_of_eq rfl
  | failed c => exact logGrows_log s _ _

theorem logGrows_resolveEnd (s : State) : LogGrows s (resolveEnd s) :=
  logGrows_writePa _ { s with edidReq := none, edidRsp := none }

/-! ### PC's program -/

theorem exec_logGrows (i : Instr) (s : State) : Answers (LogGrows s) (exec i s) := by
  obtain ⟨as, h⟩ | ⟨-, h⟩ := exec_react i s
  · rw [h, react_eq]
    exact answers_next.2 (logGrows_of_eq rfl)
  · rw [h]
    exact answers_fault _

theorem dispatchStep_logGrows (s : State) : Answers (LogGrows s) (dispatchStep s) := by
  unfold dispatchStep
  split
  · exact answers_fault _
  · split
    · exact exec_logGrows _ s
    · exact answers_fault _

theorem execute_logGrows (a : Action) (s : State) : Answers (LogGrows s) (execute a s) := by
  cases a with
  | send g => exact sendStart_logGrows _ _ _
  | key k => exact answers_next.2 (logGrows_of_eq (emitKey_logq k s))
  | log e => exact answers_next.2 (logGrows_log s _ _)
  | reannounce => exact answers_next.2 (logGrows_of_eq rfl)

theorem actStep_logGrows (s : State) : Answers (LogGrows s) (actStep s) := by
  unfold actStep
  split
  · exact answers_next.2 (logGrows_of_eq rfl)
  · exact execute_logGrows _ _

theorem labelStep_logGrows (s : State) : Answers (LogGrows s) (labelStep s) := by
  unfold labelStep
  cases s.pc.point with
  | boot => exact answers_next.2 (logGrows_of_eq rfl)
  | resolve => exact answers_next.2 (logGrows_of_eq rfl)
  | alloc => exact answers_next.2 (logGrows_of_eq rfl)
  | announce => exact announceStart_logGrows s
  | receive => exact receiveStart_logGrows s
  | dispatch => exact dispatchStep_logGrows s
  | act => exact actStep_logGrows s

theorem pcStep_logGrows (s : State) : Answers (LogGrows s) (pcStep s) := by
  have blocked : Answers (LogGrows s) (.next s) := answers_next.2 (logGrows_of_eq rfl)
  unfold pcStep
  cases s.pc.op with
  | run => exact labelStep_logGrows s
  | poll => exact sendStart_logGrows _ _ _
  | announce => exact announceStart_logGrows s
  | resolving => exact answers_next.2 ((logGrows_resolveEnd s).trans (logGrows_of_eq (afterResolve_logq _)))
  | freeWait why f => exact sendLaunch_logGrows why f s
  | sending why =>
    dsimp only
    split
    · exact answers_next.2 (logGrows_sendResult why _ s.takeNotification)
    · exact blocked
  | receiving =>
    dsimp only
    split
    · exact answers_next.2 (logGrows_of_eq (receiveResult_logq _ s.takeNotification))
    · exact blocked
  | keying k since => exact answers_next.2 (logGrows_emitKeyEnd k s)

/-! ### The moves and the step -/

theorem freeStep_logGrows (s : State) : Answers (LogGrows s) (freeStep s) := by
  unfold freeStep
  split
  · exact answers_next.2 (logGrows_of_eq rfl)
  · split <;> exact answers_next.2 (logGrows_of_eq rfl)

theorem takeMove_logGrows (m : Move) (s : State) : Answers (LogGrows s) (takeMove m s) := by
  cases m with
  | rx => exact (rxStep_keptByRx s).mono fun _ k => k.log
  | rxa => exact (rxaStep_keptByRxa s).mono fun _ k => k.byRx.log
  | tx => exact (txStep_keptByTx s).mono fun _ k => logGrows_of_eq k.logq
  | freeSample => exact freeStep_logGrows s
  | pc =>
    cases h : s.pcReady with
    | true => exact takeMove_pc_of_ready h ▸ pcStep_logGrows s
    | false => exact takeMove_pc_of_blocked h ▸ answers_next.2 (logGrows_of_eq rfl)
  | wait us => exact answers_next.2 (logGrows_of_eq (keptByOutside_timePasses s us).logq)
  | env low => exact answers_next.2 (logGrows_of_eq (keptByOutside_driveEnv s low).logq)
  | edid r => exact answers_next.2 (logGrows_of_eq (keptByOutside_edidAnswers s r).logq)
  | host => exact answers_next.2 (logGrows_of_eq (keptByOutside_hostTakes s).logq)

@[simp] theorem State.nextMove_logq (s : State) : s.nextMove.2.logq = s.logq := by
  unfold State.nextMove
  split <;> rfl

theorem agentStep_logGrows (s : State) : Answers (LogGrows s) (agentStep s) :=
  (takeMove_logGrows _ _).mono fun _ => (logGrows_of_eq (State.nextMove_logq s)).trans

theorem step_logGrows (s : State) : Answers (LogGrows s) (step s) := by
  unfold step
  split
  · exact answers_fault _
  · split
    · exact pcStep_logGrows s
    · exact agentStep_logGrows s

end Sys2Proof.Machine

namespace Sys2Proof.Proofs

/-- Settles O57: every move and every step of PC leaves the log as it is or appends one event. -/
theorem logOnlyGrows : Obligations.LogOnlyGrows := Machine.step_logGrows

end Sys2Proof.Proofs
end

section
/-! PROOFS. An edge is a change of the wired-AND level (R100, R101, R566), and whose step a step is (R510, R570,
R573). -/

namespace Sys2Proof.Machine

variable {s old new : State}

/-! ### The line and its drivers -/

/-- An edge moves no driver, so the level after a change is the one its drivers give. -/
@[simp] theorem lineChange_line (old new : State) : (lineChange old new).line = new.line := by
  simp [State.line]

/-- A change of level is an edge to the new level, pending where one can be (R101, R566). -/
theorem lineChange_edgePending_of_ne (h : new.line ≠ old.line) :
    (lineChange old new).edgePending =
      if new.edgeArmed = true ∧ new.edgePending = none then
        some ⟨if new.line then .rising else .falling, new.clock⟩
      else new.edgePending := by
  rw [lineChange, if_neg h.symm, State.edgeHappens_edgePending]

/-- The state differs from `s` in drivers only: neither the edges nor the clock moved. -/
structure DriversChanged (s new : State) : Prop where
  edgeArmed : new.edgeArmed = s.edgeArmed
  edgePending : new.edgePending = s.edgePending
  clock : new.clock = s.clock

/-- Each of the three drivers changes the line through `lineChange`. -/
theorem exists_lineChange_of_drive {t : State} {low : Bool}
    (h : t = s.driveRx low ∨ t = s.driveTx low ∨ t = s.driveEnv low) :
    ∃ new, DriversChanged s new ∧ t = lineChange s new := by
  obtain rfl | rfl | rfl := h
  · exact ⟨{ s with rxDrive := low }, ⟨rfl, rfl, rfl⟩, rfl⟩
  · exact ⟨{ s with txDrive := low }, ⟨rfl, rfl, rfl⟩, rfl⟩
  · exact ⟨{ s with envLow := low }, ⟨rfl, rfl, rfl⟩, rfl⟩

/-! ### Whose step a step is -/

/-- PC is not blocked exactly at the three places between two blocking points (R510). -/
theorem State.pcRuns_iff : s.pcRuns = true ↔ s.pc.op = .run ∨ s.pc.op = .poll ∨ s.pc.op = .announce := by
  unfold State.pcRuns
  cases s.pc.op <;> simp

theorem step_of_pcRuns (hd : s.halfDuplexBroken = false) (h : s.pcRuns = true) : step s = pcStep s := by
  simp [step, hd, h]

theorem step_of_pcBlocked (hd : s.halfDuplexBroken = false) (h : s.pcRuns = false) : step s = agentStep s := by
  simp [step, hd, h]

theorem State.nextMove_of_cons {m : Move} {rest : List Move} (h : s.schedule = m :: rest) :
    s.nextMove = (m, { s with schedule := rest }) := by
  simp [State.nextMove, h]

theorem State.nextMove_of_nil (h : s.schedule = []) :
    s.nextMove = (Config.freeMove s.draws, { s with draws := s.draws + 1 }) := by
  simp [State.nextMove, h]

end Sys2Proof.Machine

namespace Sys2Proof.Proofs

open Sys2Proof.Machine

/-- A driver makes an edge exactly when it changes the level (R101), and the edge is pending or lost (R566). -/
theorem drive_edgePending {s t : State} {low : Bool}
    (h : t = s.driveRx low ∨ t = s.driveTx low ∨ t = s.driveEnv low) :
    (t.line = s.line → t.edgePending = s.edgePending) ∧
    (t.line ≠ s.line →
      t.edgePending =
        if s.edgeArmed = true ∧ s.edgePending = none then
          some ⟨if t.line then .rising else .falling, s.clock⟩
        else s.edgePending) := by
  obtain ⟨new, ⟨harmed, hpending, hclock⟩, rfl⟩ := exists_lineChange_of_drive h
  rw [lineChange_line]
  constructor
  · intro hline
    rw [lineChange_edgePending_of_same s new hline.symm, hpending]
  · intro hline
    rw [lineChange_edgePending_of_ne hline, harmed, hpending, hclock]

/-- The EDID agent answers an open request once, and has nothing to answer otherwise (R471). -/
theorem takeMove_edid (s : State) (r : EdidAnswer) :
    (s.edidReq ≠ none → s.edidRsp = none → takeMove (.edid r) s = .next { s with edidRsp := some r }) ∧
    ((s.edidReq = none ∨ s.edidRsp ≠ none) → takeMove (.edid r) s = .next s) := by
  have htake : takeMove (.edid r) s = .next (s.edidAnswers r) := rfl
  rw [htake, State.edidAnswers_eq]
  constructor
  · intro hreq hrsp
    rw [if_pos ⟨hreq, hrsp⟩]
  · intro h
    rw [if_neg (by tauto)]

/-- HOST takes the head of the key channel, and nothing from an empty one (R586). -/
theorem takeMove_host_of_cons {s : State} {k : Byte} {rest : List Byte} (h : s.keyq = k :: rest) :
    takeMove .host s = .next { s with keyq := rest } := by
  simp [takeMove, State.hostTakes, h]

theorem takeMove_host_of_nil {s : State} (h : s.keyq = []) : takeMove .host s = .next s := by
  have htail : s.keyq.tail = s.keyq := by rw [h, List.tail_nil]
  simp only [takeMove, State.hostTakes, htail]

/-- Settles O54: the three drivers go through `lineChange`, a move is one arm of `takeMove`, and a step is PC's own
exactly while `pcRuns`. -/
theorem lineEdgesAreDelivered : Obligations.LineEdgesAreDelivered := by
  refine ⟨fun s low t h => ⟨State.line_iff, drive_edgePending h⟩, fun s low => ?_, fun s us => ?_,
    fun s hd => ?_⟩
  · exact ⟨lineChange_eq _ _, lineChange_eq _ _, lineChange_eq _ _, rfl, takeMove_edid s,
      fun k rest => takeMove_host_of_cons, takeMove_host_of_nil⟩
  · exact ⟨rfl, rfl, rfl, rfl, rfl, takeMove_pc_of_ready, takeMove_pc_of_blocked⟩
  · refine ⟨fun h => step_of_pcRuns hd (State.pcRuns_iff.2 h), fun hrun hpoll hann => ?_⟩
    have hblocked : s.pcRuns = false := by
      rw [← Bool.not_eq_true, State.pcRuns_iff]
      tauto
    rw [step_of_pcBlocked hd hblocked]
    constructor
    · intro m rest h
      rw [agentStep, State.nextMove_of_cons h]
    · intro h
      rw [agentStep, State.nextMove_of_nil h]

end Sys2Proof.Proofs
end

section
/-! PROOFS. Both ends of when a step is taken (R103, R471, R566, R572, R585): no timer fires early, and a stretch of
time fits in what every timer, the pending edge and PC still allow. -/

namespace Sys2Proof.Machine

variable {s : State} {a : Alarm} {us : Nat}

/-! ### When a timer fires (R103, R572) -/

theorem State.fires_some_iff : s.fires (some a) = true ↔ (s.clock - a.ready).toNat < 2 ^ 63 := by
  simp [State.fires, atOrAfter]

/-- `max(due, t_arm)` as a difference on the wrapping clock (log 6). -/
theorem Alarm.ready_eq (a : Alarm) :
    a.ready = if (a.due - a.armedAt).toNat < 2 ^ 63 then a.due else a.armedAt := by
  simp [Alarm.ready, latest, atOrAfter]

/-- Below 2^63 the difference modulo 2^64 orders two times as numbers. -/
theorem sub_toNat_lt_iff {a b : Time} (ha : a.toNat < 2 ^ 63) (hb : b.toNat < 2 ^ 63) :
    (a - b).toNat < 2 ^ 63 ↔ b.toNat ≤ a.toNat := by
  rw [BitVec.toNat_sub]
  omega

/-- Below 2^63 a timer is ready at the larger of the two numbers. -/
theorem Alarm.ready_toNat (hdue : a.due.toNat < 2 ^ 63) (harmed : a.armedAt.toNat < 2 ^ 63) :
    a.ready.toNat = max a.due.toNat a.armedAt.toNat := by
  rw [Alarm.ready_eq]
  simp only [sub_toNat_lt_iff hdue harmed]
  split
  · next h => exact (max_eq_left h).symm
  · next h => exact (max_eq_right (Nat.le_of_not_le h)).symm

theorem State.fires_iff_max_le (hclock : s.clock.toNat < 2 ^ 63) (hdue : a.due.toNat < 2 ^ 63)
    (harmed : a.armedAt.toNat < 2 ^ 63) :
    s.fires (some a) = true ↔ max a.due.toNat a.armedAt.toNat ≤ s.clock.toNat := by
  have hready := Alarm.ready_toNat hdue harmed
  rw [State.fires_some_iff, sub_toNat_lt_iff hclock (by omega), hready]

theorem rxaStep_of_not_fires (h : s.fires s.rxaTimer = false) : rxaStep s = .next s := by
  simp [rxaStep, h]

theorem txStep_of_not_fires (h : s.fires s.txTimer = false) : txStep s = .next s := by
  unfold txStep
  split
  · rfl
  · simp [h]

theorem freeStep_of_not_fires (h : s.fires s.freeTimer = false) : freeStep s = .next s := by
  unfold freeStep
  split
  · rfl
  · simp [h]

/-! ### A stretch of time is within every limit -/

theorem State.timeLimit_le_pcLimit : s.timeLimit us ≤ s.pcLimit us :=
  (State.timerLimit_le _ _).trans <| (State.timerLimit_le _ _).trans <| (State.timerLimit_le _ _).trans <|
    State.edgeLimit_le _

theorem State.timeLimit_le_edgeLimit : s.timeLimit us ≤ s.edgeLimit (s.pcLimit us) :=
  (State.timerLimit_le _ _).trans <| (State.timerLimit_le _ _).trans <| State.timerLimit_le _ _

/-- Whichever timer is armed as `a`, a stretch of time is a stretch that fits in that timer's limit. -/
theorem State.timeLimit_le_timerLimit (h : s.txTimer = some a ∨ s.rxaTimer = some a ∨ s.freeTimer = some a) :
    ∃ k, s.timeLimit us ≤ s.timerLimit (some a) k := by
  obtain h | h | h := h <;> rw [← h]
  · exact ⟨_, le_rfl⟩
  · exact ⟨_, State.timerLimit_le _ _⟩
  · exact ⟨_, (State.timerLimit_le _ _).trans (State.timerLimit_le _ _)⟩

/-! ### What each limit leaves -/

theorem State.timerLimit_le_of_due (h : atOrAfter s.clock a.ready = true) (k : Nat) :
    s.timerLimit (some a) k ≤ Config.latTimer - (s.clock - a.ready).toNat := by
  rw [State.timerLimit, if_pos h]
  exact min_le_right _ _

theorem State.timerLimit_le_of_not_due (h : atOrAfter s.clock a.ready = false) (k : Nat) :
    s.timerLimit (some a) k ≤ (a.ready - s.clock).toNat + Config.latTimer := by
  have hnot : ¬ atOrAfter s.clock a.ready = true := by simp [h]
  rw [State.timerLimit, if_neg hnot]
  split <;> omega

theorem State.edgeLimit_le_of_pending {e : Edge} (h : s.edgePending = some e) (k : Nat) :
    s.edgeLimit k ≤ Config.latEdge - (s.clock - e.time).toNat := by
  simp [State.edgeLimit, h, State.elapsed]

theorem State.pcLimit_of_ready (h : s.pcReady = true) : s.pcLimit us = 0 := by
  simp [State.pcLimit, h]

theorem State.pcLimit_le_of_resolving {q : EdidRequest} (hop : s.pc.op = .resolving) (hreq : s.edidReq = some q) :
    s.pcLimit us ≤ Config.edidTimeout - (s.clock - q.since).toNat := by
  unfold State.pcLimit
  split
  · exact Nat.zero_le _
  · simp [hop, hreq, State.elapsed]

theorem State.pcLimit_le_of_keying {k : Byte} {since : Time} (hop : s.pc.op = .keying k since) :
    s.pcLimit us ≤ Config.keyqWait - (s.clock - since).toNat := by
  unfold State.pcLimit
  split
  · exact Nat.zero_le _
  · simp [hop, State.elapsed]

/-- In a receive with nothing owed every limit is the stretch itself. -/
theorem State.timeLimit_of_receiving (hop : s.pc.op = .receiving) (hready : s.pcReady = false)
    (hedge : s.edgePending = none) (htx : s.txTimer = none) (hrxa : s.rxaTimer = none) (hfree : s.freeTimer = none) :
    s.timeLimit us = us := by
  simp [State.timeLimit, State.timerLimit, State.edgeLimit, State.pcLimit, hop, hready, hedge, htx, hrxa, hfree]

/-! ### What a stretch of time leaves on the clock -/

/-- A stretch that fits in what is left of `L` since `since` leaves at most `L`. -/
theorem timePasses_elapsed_le {since : Time} {L : Nat} (hlimit : s.timeLimit us ≤ L - (s.clock - since).toNat)
    (h : (s.clock - since).toNat ≤ L) : ((s.timePasses us).clock - since).toNat ≤ L :=
  elapsed_le_of_le hlimit h

theorem timePasses_overdue_le (h : s.txTimer = some a ∨ s.rxaTimer = some a ∨ s.freeTimer = some a) :
    (atOrAfter s.clock a.ready = true → (s.clock - a.ready).toNat ≤ Config.latTimer →
      ((s.timePasses us).clock - a.ready).toNat ≤ Config.latTimer) ∧
    (atOrAfter s.clock a.ready = false → atOrAfter (s.timePasses us).clock a.ready = true →
      ((s.timePasses us).clock - a.ready).toNat ≤ Config.latTimer) := by
  obtain ⟨k, hk⟩ := State.timeLimit_le_timerLimit (us := us) h
  constructor
  · intro hdue
    exact timePasses_elapsed_le (hk.trans (State.timerLimit_le_of_due hdue k))
  · intro hnot hafter
    exact elapsed_le_of_before (hk.trans (State.timerLimit_le_of_not_due hnot k)) hnot hafter

theorem timePasses_clock_of_ready (h : s.pcReady = true) : (s.timePasses us).clock = s.clock := by
  have hzero : s.timeLimit us = 0 := Nat.le_zero.1 (State.timeLimit_le_pcLimit.trans_eq (State.pcLimit_of_ready h))
  simp [hzero, micros]

end Sys2Proof.Machine

namespace Sys2Proof.Proofs

open Sys2Proof.Machine

/-- Settles O55: a timer fires from the later of its two times on, and the stretch `timeLimit` gives is at most each of
the limits it is made of. -/
theorem timePassesWithinLatencies : Obligations.TimePassesWithinLatencies := by
  refine ⟨fun s => ⟨rfl, fun a => ?_, fun a => State.fires_iff_max_le, rxaStep_of_not_fires, txStep_of_not_fires,
    freeStep_of_not_fires⟩, fun s us => ⟨fun a => timePasses_overdue_le, fun e he => ?_, fun q hop hreq => ?_,
    fun k since hop => ?_, timePasses_clock_of_ready, fun hop hready hedge htx hrxa hfree => ?_⟩⟩
  · rw [← Alarm.ready_eq]
    exact State.fires_some_iff
  · exact timePasses_elapsed_le (State.timeLimit_le_edgeLimit.trans (State.edgeLimit_le_of_pending he _))
  · exact timePasses_elapsed_le (State.timeLimit_le_pcLimit.trans (State.pcLimit_le_of_resolving hop hreq))
  · exact timePasses_elapsed_le (State.timeLimit_le_pcLimit.trans (State.pcLimit_le_of_keying hop))
  · exact congrArg (fun k => s.clock + BitVec.ofNat 64 k)
      (State.timeLimit_of_receiving hop hready hedge htx hrxa hfree)

end Sys2Proof.Proofs
end

section
/-! PROOFS. The discipline in the terms proofs use (R160, R266, R520, R521): its parts by name, which fields each part
reads, and what it says of the bus at each place of PC. -/

namespace Sys2Proof.Machine

variable {s m t : State} {P Q : State → Prop} {r : Result}

/-! ### A step that must answer a next state -/

/-- The result is a next state, no fault and no refusal, and the state has the property. -/
def Yields (P : State → Prop) (r : Result) : Prop := ∃ t, r = .next t ∧ P t

theorem yields_next (h : P s) : Yields P (.next s) := ⟨s, rfl, h⟩

theorem Yields.mono (h : Yields P r) (hPQ : ∀ t, P t → Q t) : Yields Q r := by
  obtain ⟨t, ht, hP⟩ := h
  exact ⟨t, ht, hPQ t hP⟩

/-- What every answer keeps holds of the answer there is. -/
theorem Yields.and_answers (h : Yields P r) (ha : Answers Q r) : Yields (fun t => P t ∧ Q t) r := by
  obtain ⟨t, ht, hP⟩ := h
  exact ⟨t, ht, hP, ha t ht⟩

theorem yields_andThen {k : State → Result} (hr : Yields P r) (hk : ∀ m, P m → Yields Q (k m)) :
    Yields Q (andThen r k) := by
  obtain ⟨m, rfl, hP⟩ := hr
  exact hk m hP

theorem yields_notify {v : Notification} (hslot : s.notifySlot = none) (h : P { s with notifySlot := some v }) :
    Yields P (notify v s) := ⟨_, notify_eq_next.2 ⟨hslot, rfl⟩, h⟩

theorem yields_withInterval {k : Time → Result} (htref : s.rx.tref.isSome = true) (h : ∀ d, Yields P (k d)) :
    Yields P (withInterval s k) := by
  obtain ⟨t₀, ht₀⟩ := Option.isSome_iff_exists.1 htref
  rw [withInterval_some ht₀]
  exact h _

theorem yields_withTxLen {k : Fin 17 → Result} (hlen : s.tx.len.isSome = true) (h : ∀ n, Yields P (k n)) :
    Yields P (withTxLen s k) := by
  obtain ⟨n, hn⟩ := Option.isSome_iff_exists.1 hlen
  rw [withTxLen_some hn]
  exact h n

theorem yields_withLa {k : LogicalAddr → Result} (hla : s.pc.la.isSome = true) (h : ∀ la, Yields P (k la)) :
    Yields P (withLa s k) := by
  obtain ⟨la, hla⟩ := Option.isSome_iff_exists.1 hla
  rw [withLa_some hla]
  exact h la

/-! ### The parts of the discipline by name -/

/-- The parts of `State.disciplined`. -/
structure Disciplined (s : State) : Prop where
  rxBuf : s.rx.buf.wf = true
  txFrame : s.tx.frame.wf = true
  opFits : s.pc.opFitsPoint = true
  laKnown : s.pc.laKnown = true
  laCandidate : s.pc.laIsCandidate = true
  frame : s.frameAtDispatch = true
  actions : s.pc.actions.all Action.sendable = true
  bus : s.busFitsPc = true

theorem State.disciplined_iff : s.disciplined = true ↔ Disciplined s := by
  constructor
  · intro h
    simp only [State.disciplined, Bool.and_eq_true] at h
    obtain ⟨⟨⟨⟨⟨⟨⟨hrx, htx⟩, hop⟩, hknown⟩, hcand⟩, hframe⟩, hactions⟩, hbus⟩ := h
    exact ⟨hrx, htx, hop, hknown, hcand, hframe, hactions, hbus⟩
  · intro ⟨hrx, htx, hop, hknown, hcand, hframe, hactions, hbus⟩
    simp only [State.disciplined, hrx, htx, hop, hknown, hcand, hframe, hactions, hbus, Bool.and_self]

/-- The parts of `State.receiverQuiet`. -/
structure ReceiverQuiet (s : State) : Prop where
  notInFlight : s.receiveInFlight = false
  disarmed : s.edgeArmed = false
  noEdge : s.edgePending = none
  released : s.rxDrive = false
  ackOff : s.rx.ackActive = false
  noTimer : s.rxaTimer = none

theorem State.receiverQuiet_iff : s.receiverQuiet = true ↔ ReceiverQuiet s := by
  simp only [State.receiverQuiet, Bool.and_eq_true, Bool.not_eq_true', Option.isNone_iff_eq_none]
  constructor
  · intro ⟨⟨⟨⟨⟨hflight, harmed⟩, hedge⟩, hdrive⟩, hack⟩, htimer⟩
    exact ⟨hflight, harmed, hedge, hdrive, hack, htimer⟩
  · intro ⟨hflight, harmed, hedge, hdrive, hack, htimer⟩
    exact ⟨⟨⟨⟨⟨hflight, harmed⟩, hedge⟩, hdrive⟩, hack⟩, htimer⟩

/-- The parts of `State.transmitterQuiet`. -/
structure TransmitterQuiet (s : State) : Prop where
  idle : s.tx.phase = .idle
  noTimer : s.txTimer = none
  released : s.txDrive = false

theorem State.transmitterQuiet_iff : s.transmitterQuiet = true ↔ TransmitterQuiet s := by
  simp only [State.transmitterQuiet, Bool.and_eq_true, beq_iff_eq, Bool.not_eq_true', Option.isNone_iff_eq_none]
  constructor
  · intro ⟨⟨hidle, htimer⟩, hdrive⟩
    exact ⟨hidle, htimer, hdrive⟩
  · intro ⟨hidle, htimer, hdrive⟩
    exact ⟨⟨hidle, htimer⟩, hdrive⟩

theorem TransmitterQuiet.notInFlight (h : TransmitterQuiet s) : s.sendInFlight = false := by
  simp [State.sendInFlight, h.idle]

/-- What a receive in flight keeps whether or not its handler is at work: `State.receiverRunning` but for the edges. -/
structure ReceiveGoing (s : State) : Prop where
  inFlight : s.receiveInFlight = true
  slot : s.notifySlot = none
  target : s.rx.target.isSome = true
  tref : s.rx.phase = .awaitStart ∨ s.rx.tref.isSome = true
  drive : s.rxDrive = s.rx.ackActive
  timer : s.rxaTimer.isSome = s.rx.ackActive
  ack : s.rx.ackActive = true → s.rx.phase = .ackLow ∧ s.edgePending = none

theorem State.receiverRunning_iff : s.receiverRunning = true ↔ ReceiveGoing s ∧ s.edgeArmed = true := by
  simp only [State.receiverRunning, Bool.and_eq_true, Bool.or_eq_true, beq_iff_eq, Bool.not_eq_true',
    Option.isNone_iff_eq_none]
  constructor
  · intro ⟨⟨⟨⟨⟨⟨⟨hflight, harmed⟩, hslot⟩, htarget⟩, htref⟩, hdrive⟩, htimer⟩, hack⟩
    refine ⟨⟨hflight, hslot, htarget, htref, hdrive, htimer, fun h => ?_⟩, harmed⟩
    exact hack.resolve_left (by simp [h])
  · intro ⟨⟨hflight, hslot, htarget, htref, hdrive, htimer, hack⟩, harmed⟩
    refine ⟨⟨⟨⟨⟨⟨⟨hflight, harmed⟩, hslot⟩, htarget⟩, htref⟩, hdrive⟩, htimer⟩, ?_⟩
    cases h : s.rx.ackActive with
    | false => exact .inl rfl
    | true => exact .inr (hack h)

theorem State.receiverEnded_iff :
    s.receiverEnded = true ↔ ReceiverQuiet s ∧ ∃ n, s.notifySlot = some (.rxDone n) ∧ s.rx.len = some n := by
  rw [State.receiverEnded, Bool.and_eq_true, State.receiverQuiet_iff]
  refine and_congr_right fun _ => ?_
  split
  · next n hslot => simp [hslot]
  · next hslot => exact iff_of_false Bool.false_ne_true fun ⟨n, h, _⟩ => hslot n h

/-- The phases in which the transmitter holds the line low (R303 to R311). -/
def TxPhase.drivesLow : TxPhase → Bool
  | .startHigh | .dataHigh | .eomHigh | .ackHigh => true
  | _ => false

/-- The parts of `State.transmitterRunning`. -/
structure TransmitterRunning (s : State) : Prop where
  inFlight : s.tx.phase ≠ .idle
  timer : s.txTimer.isSome = true
  len : s.tx.len.isSome = true
  slot : s.notifySlot = none
  drive : s.txDrive = s.tx.phase.drivesLow

theorem State.transmitterRunning_iff : s.transmitterRunning = true ↔ TransmitterRunning s := by
  have hphase : s.transmitterRunning = (s.tx.phase != .idle && s.txTimer.isSome && s.tx.len.isSome &&
      s.notifySlot.isNone && s.txDrive == s.tx.phase.drivesLow) := rfl
  simp only [hphase, Bool.and_eq_true, bne_iff_ne, beq_iff_eq, Option.isNone_iff_eq_none]
  constructor
  · intro ⟨⟨⟨⟨hflight, htimer⟩, hlen⟩, hslot⟩, hdrive⟩
    exact ⟨hflight, htimer, hlen, hslot, hdrive⟩
  · intro ⟨hflight, htimer, hlen, hslot, hdrive⟩
    exact ⟨⟨⟨⟨hflight, htimer⟩, hlen⟩, hslot⟩, hdrive⟩

theorem State.transmitterEnded_iff :
    s.transmitterEnded = true ↔ TransmitterQuiet s ∧ ∃ acked, s.notifySlot = some (.txDone acked) := by
  rw [State.transmitterEnded, Bool.and_eq_true, State.transmitterQuiet_iff]
  refine and_congr_right fun _ => ?_
  split
  · next acked hslot => simp [hslot]
  · next hslot => exact iff_of_false Bool.false_ne_true fun ⟨acked, h⟩ => hslot acked h

/-! ### The bus at each place of PC (R510) -/

/-- Nothing goes on on the bus and nothing is to be taken from the slot. -/
structure BusIdle (s : State) : Prop where
  receiver : ReceiverQuiet s
  transmitter : TransmitterQuiet s
  slot : s.notifySlot = none
  freeTimer : s.freeTimer = none

/-- The operations of PC that do not use the bus. -/
def PcOp.leavesBus : PcOp → Bool
  | .run | .poll | .announce | .resolving | .keying _ _ => true
  | .freeWait _ _ | .sending _ | .receiving => false

theorem State.busFitsPc_of_leavesBus (hop : s.pc.op.leavesBus = true) : s.busFitsPc = true ↔ BusIdle s := by
  have hbus : s.busFitsPc =
      (s.receiverQuiet && s.transmitterQuiet && s.notifySlot.isNone && s.freeTimer.isNone) := by
    unfold State.busFitsPc
    cases h : s.pc.op with
    | freeWait why f => simp [h, PcOp.leavesBus] at hop
    | sending why => simp [h, PcOp.leavesBus] at hop
    | receiving => simp [h, PcOp.leavesBus] at hop
    | _ => rfl
  simp only [hbus, Bool.and_eq_true, State.receiverQuiet_iff, State.transmitterQuiet_iff, Option.isNone_iff_eq_none]
  exact ⟨fun ⟨⟨⟨hrx, htx⟩, hslot⟩, hfree⟩ => ⟨hrx, htx, hslot, hfree⟩,
    fun ⟨hrx, htx, hslot, hfree⟩ => ⟨⟨⟨hrx, htx⟩, hslot⟩, hfree⟩⟩

theorem State.busFitsPc_of_freeWait {why : SendFor} {f : List Byte} (hop : s.pc.op = .freeWait why f) :
    s.busFitsPc = true ↔ ReceiverQuiet s ∧ TransmitterQuiet s ∧ s.notifySlot = none ∧ sendable f = true ∧
      s.freeTimer.isSome = decide (s.pc.freeCount.val < Config.freeBitCount) := by
  simp only [State.busFitsPc, hop, Bool.and_eq_true, State.receiverQuiet_iff, State.transmitterQuiet_iff,
    Option.isNone_iff_eq_none, beq_iff_eq, and_assoc]

theorem State.busFitsPc_of_sending {why : SendFor} (hop : s.pc.op = .sending why) :
    s.busFitsPc = true ↔
      ReceiverQuiet s ∧ s.freeTimer = none ∧ (TransmitterRunning s ∨ s.transmitterEnded = true) := by
  simp only [State.busFitsPc, hop, Bool.and_eq_true, Bool.or_eq_true, State.receiverQuiet_iff,
    State.transmitterRunning_iff, Option.isNone_iff_eq_none, and_assoc]

theorem State.busFitsPc_of_receiving (hop : s.pc.op = .receiving) :
    s.busFitsPc = true ↔
      TransmitterQuiet s ∧ s.freeTimer = none ∧ (s.receiverRunning = true ∨ s.receiverEnded = true) := by
  simp only [State.busFitsPc, hop, Bool.and_eq_true, Bool.or_eq_true, State.transmitterQuiet_iff,
    Option.isNone_iff_eq_none, and_assoc]

/-! ### Which agent can be at work -/

/-- Only inside `receive()` is anything of a receive going on. -/
theorem Disciplined.receiverQuiet_or (h : Disciplined s) :
    ReceiverQuiet s ∨ s.pc.op = .receiving ∧ ReceiveGoing s ∧ s.edgeArmed = true := by
  have hbus := h.bus
  cases hop : s.pc.op with
  | freeWait why f => exact .inl ((State.busFitsPc_of_freeWait hop).1 hbus).1
  | sending why => exact .inl ((State.busFitsPc_of_sending hop).1 hbus).1
  | receiving =>
    obtain ⟨-, -, hrun | hend⟩ := (State.busFitsPc_of_receiving hop).1 hbus
    · exact .inr ⟨rfl, State.receiverRunning_iff.1 hrun⟩
    · exact .inl (State.receiverEnded_iff.1 hend).1
  | _ => exact .inl ((State.busFitsPc_of_leavesBus (by simp [hop, PcOp.leavesBus])).1 hbus).receiver

/-- Only inside `send` is anything of a send going on. -/
theorem Disciplined.transmitterQuiet_or (h : Disciplined s) :
    TransmitterQuiet s ∨ ReceiverQuiet s ∧ ∃ why, s.pc.op = .sending why ∧ TransmitterRunning s := by
  have hbus := h.bus
  cases hop : s.pc.op with
  | freeWait why f => exact .inl ((State.busFitsPc_of_freeWait hop).1 hbus).2.1
  | sending why =>
    obtain ⟨hrx, -, hrun | hend⟩ := (State.busFitsPc_of_sending hop).1 hbus
    · exact .inr ⟨hrx, why, rfl, hrun⟩
    · exact .inl (State.transmitterEnded_iff.1 hend).1
  | receiving => exact .inl ((State.busFitsPc_of_receiving hop).1 hbus).1
  | _ => exact .inl ((State.busFitsPc_of_leavesBus (by simp [hop, PcOp.leavesBus])).1 hbus).transmitter

/-- Only the bus-free wait has its timer armed. -/
theorem Disciplined.freeTimer_or (h : Disciplined s) :
    s.freeTimer = none ∨ ∃ why f, s.pc.op = .freeWait why f := by
  have hbus := h.bus
  cases hop : s.pc.op with
  | freeWait why f => exact .inr ⟨why, f, rfl⟩
  | sending why => exact .inl ((State.busFitsPc_of_sending hop).1 hbus).2.1
  | receiving => exact .inl ((State.busFitsPc_of_receiving hop).1 hbus).2.1
  | _ => exact .inl ((State.busFitsPc_of_leavesBus (by simp [hop, PcOp.leavesBus])).1 hbus).freeTimer

/-- The discipline excludes the fault HALF_DUPLEX (R160). -/
theorem Disciplined.halfDuplexKept (h : Disciplined s) : s.halfDuplexBroken = false := by
  rw [State.halfDuplexBroken]
  obtain htx | ⟨hrx, -⟩ := h.transmitterQuiet_or
  · simp [htx.notInFlight]
  · simp [hrx.notInFlight, hrx.disarmed]

/-! ### What each part reads -/

theorem TransmitterQuiet.congr (h : TransmitterQuiet s) (htx : t.tx = s.tx) (htimer : t.txTimer = s.txTimer)
    (hdrive : t.txDrive = s.txDrive) : TransmitterQuiet t :=
  ⟨htx ▸ h.idle, htimer ▸ h.noTimer, hdrive ▸ h.released⟩

theorem ReceiverQuiet.congr (h : ReceiverQuiet s) (hrx : t.rx = s.rx) (harmed : t.edgeArmed = s.edgeArmed)
    (hedge : t.edgePending = s.edgePending) (hdrive : t.rxDrive = s.rxDrive) (htimer : t.rxaTimer = s.rxaTimer) :
    ReceiverQuiet t where
  notInFlight := by simpa [State.receiveInFlight, hrx] using h.notInFlight
  disarmed := harmed ▸ h.disarmed
  noEdge := hedge ▸ h.noEdge
  released := hdrive ▸ h.released
  ackOff := hrx ▸ h.ackOff
  noTimer := htimer ▸ h.noTimer

end Sys2Proof.Machine
end

section
/-! PROOFS. The receiver keeps its part of the discipline (R242, R266): its handler from entry to exit, and the ACK
release. -/

namespace Sys2Proof.Machine

variable {s m t : State}

/-! ### Between the handler's entry and its exit (R242) -/

/-- The handler at work on an edge of a receive that goes on. -/
structure InHandler (s : State) : Prop where
  going : ReceiveGoing s
  disarmed : s.edgeArmed = false
  noEdge : s.edgePending = none
  buf : s.rx.buf.wf = true

/-- The handler at work on an edge that ended the receive: PC has the result to take. -/
structure EndedInHandler (s : State) : Prop where
  ended : s.receiverEnded = true
  phase : s.rx.phase = .done ∨ s.rx.phase = .abort
  buf : s.rx.buf.wf = true

/-- What a transition rule leaves. -/
def Handled (s : State) : Prop := InHandler s ∨ EndedInHandler s

/-- What the handler leaves at its exit. -/
structure ReceiverKept (s : State) : Prop where
  runsOrEnded : s.receiverRunning = true ∨ s.receiverEnded = true
  buf : s.rx.buf.wf = true

/-- While an edge can be pending the receiver does not drive the ACK slot (R258, R266). -/
theorem ReceiveGoing.ackOff_of_edge {e : Edge} (h : ReceiveGoing s) (he : s.edgePending = some e) :
    s.rx.ackActive = false := by
  rw [← Bool.not_eq_true]
  intro hack
  simpa [he] using (h.ack hack).2

theorem ReceiveGoing.inHandler_rxEntry (h : ReceiveGoing s) (hbuf : s.rx.buf.wf = true) : InHandler (rxEntry s) where
  going := ⟨h.inFlight, h.slot, h.target, h.tref, h.drive, h.timer, fun hack => ⟨(h.ack hack).1, rfl⟩⟩
  disarmed := rfl
  noEdge := rfl
  buf := hbuf

/-- A receive goes on with another phase, reference edge, bit or byte. -/
theorem InHandler.update {rx : Rx} (h : InHandler s) (hack : s.rx.ackActive = false)
    (hflight : State.receiveInFlight { s with rx := rx } = true) (htref : rx.tref.isSome = true)
    (hbuf : rx.buf.wf = true) (htarget : rx.target = s.rx.target := by rfl)
    (hsame : rx.ackActive = s.rx.ackActive := by rfl) : InHandler { s with rx := rx } where
  going :=
    { inFlight := hflight
      slot := h.going.slot
      target := htarget ▸ h.going.target
      tref := .inr htref
      drive := h.going.drive.trans hsame.symm
      timer := h.going.timer.trans hsame.symm
      ack := fun hon => by simp [hsame, hack] at hon }
  disarmed := h.disarmed
  noEdge := h.noEdge
  buf := hbuf

/-- A receive ends: nothing of it is left but the result in the slot and in `rx.len`. -/
theorem InHandler.ended {rx : Rx} {n : Fin 17} {log : List LogEntry} {received : List (List Byte)} (h : InHandler s)
    (hack : s.rx.ackActive = false) (hphase : rx.phase = .done ∨ rx.phase = .abort) (hlen : rx.len = some n)
    (hbuf : rx.buf = s.rx.buf := by rfl) (hsame : rx.ackActive = s.rx.ackActive := by rfl) :
    EndedInHandler { s with
      rx := rx, notifySlot := some (.rxDone n), logq := log, framesReceived := received } where
  ended := State.receiverEnded_iff.2
    ⟨{ notInFlight := by obtain h | h := hphase <;> simp [State.receiveInFlight, h]
       disarmed := h.disarmed
       noEdge := h.noEdge
       released := h.going.drive.trans hack
       ackOff := hsame.trans hack
       noTimer := by simpa [hack] using h.going.timer }, n, rfl, hlen⟩
  phase := hphase
  buf := by simpa [hbuf] using h.buf

/-! ### The transition rules (R245 to R264) -/

theorem raiseAbort_handled (c : Cause) (d : Option Time) (h : InHandler s) (hack : s.rx.ackActive = false) :
    Yields Handled (raiseAbort c d s) :=
  ⟨_, raiseAbort_eq_next.2 ⟨h.going.slot, rfl⟩, .inr (h.ended hack (.inr rfl) rfl)⟩

theorem Rx.beginByte_buf_wf {r : Rx} (h : r.buf.wf = true) (i : BitVec 4) : (r.beginByte i).buf.wf = true :=
  Memory.wf_write h i 0#8

/-- With edges disarmed the ACK slot's drive makes no edge (R566). -/
theorem ackStart_of_disarmed (h : s.edgeArmed = false) :
    ackStart s = { s with
      rxDrive := true
      rx := { s.rx with ackActive := true }
      rxaTimer := some (s.alarm s.clock Config.rxAckDrive) } := by
  have hdrive : s.driveRx true = { s with rxDrive := true } := lineChange_disarmed h
  rw [ackStart, hdrive]
  rfl

/-- The ACK drive, its flag and its timer begin together (R258). -/
theorem InHandler.ackStart (h : InHandler s) (hphase : s.rx.phase = .ackLow) : InHandler (ackStart s) := by
  rw [ackStart_of_disarmed h.disarmed]
  exact
    { going := ⟨h.going.inFlight, h.going.slot, h.going.target, h.going.tref, rfl, rfl, fun _ => ⟨hphase, h.noEdge⟩⟩
      disarmed := h.disarmed
      noEdge := h.noEdge
      buf := h.buf }

section
variable (h : InHandler s) (hack : s.rx.ackActive = false) (htref : s.rx.tref.isSome = true)
include h hack

theorem rxAwaitStartFalling_handled : Yields Handled (rxAwaitStartFalling s) :=
  yields_next (.inl (h.update hack rfl rfl h.buf))

include htref

theorem rxStartLowRising_handled : Yields Handled (rxStartLowRising s) :=
  yields_withInterval htref fun d => by
    split
    · exact yields_next (.inl (h.update hack rfl htref h.buf))
    · exact raiseAbort_handled _ _ h hack

theorem rxStartHighFalling_handled : Yields Handled (rxStartHighFalling s) :=
  yields_withInterval htref fun d => by
    split
    · exact yields_next (.inl (h.update hack rfl rfl (Rx.beginByte_buf_wf h.buf 0)))
    · exact raiseAbort_handled _ _ h hack

theorem rxDataLowRising_handled : Yields Handled (rxDataLowRising s) :=
  yields_withInterval htref fun d => by
    split
    · exact raiseAbort_handled _ _ h hack
    · exact yields_next (.inl (h.update hack rfl htref (Memory.wf_write h.buf _ _)))

theorem rxDataHighFalling_handled : Yields Handled (rxDataHighFalling s) :=
  yields_withInterval htref fun d => by
    split
    · split <;> exact yields_next (.inl (h.update hack rfl rfl h.buf))
    · exact raiseAbort_handled _ _ h hack

theorem rxEomLowRising_handled : Yields Handled (rxEomLowRising s) :=
  yields_withInterval htref fun d => by
    split
    · exact raiseAbort_handled _ _ h hack
    · exact yields_next (.inl (h.update hack rfl htref h.buf))

theorem rxEomHighFalling_handled : Yields Handled (rxEomHighFalling s) :=
  yields_withInterval htref fun d => by
    have taken : InHandler { s with rx := { s.rx with tref := some s.clock, phase := .ackLow } } :=
      h.update hack rfl rfl h.buf
    split
    · split
      · next hnone => exact absurd h.going.target (by simp [hnone])
      · refine yields_next (.inl ?_)
        split
        · exact taken.ackStart rfl
        · exact taken
    · exact raiseAbort_handled _ _ h hack

theorem rxAckLowRising_handled : Yields Handled (rxAckLowRising s) :=
  yields_withInterval htref fun d => by
    split
    · split
      · exact yields_notify h.going.slot (.inr (h.ended hack (.inl rfl) rfl))
      · exact yields_next (.inl (h.update hack rfl htref h.buf))
    · exact raiseAbort_handled _ _ h hack

theorem rxAckHighFalling_handled : Yields Handled (rxAckHighFalling s) :=
  yields_withInterval htref fun d => by
    split
    · split
      · exact raiseAbort_handled _ _ h hack
      · exact yields_next (.inl (h.update hack rfl rfl (Rx.beginByte_buf_wf h.buf _)))
    · exact raiseAbort_handled _ _ h hack

end

/-- Every rule of the receiver in a receive that goes on, with the polarity it expects and with the other one. -/
theorem rxTransition_handled (p : Polarity) (h : InHandler s) (hack : s.rx.ackActive = false) :
    Yields Handled (rxTransition p s) := by
  have wrong : Yields Handled (rxWrongPolarity s) := raiseAbort_handled _ _ h hack
  have htref (hne : s.rx.phase ≠ .awaitStart) : s.rx.tref.isSome = true := h.going.tref.resolve_left hne
  have hflight := h.going.inFlight
  unfold State.receiveInFlight at hflight
  unfold rxTransition
  cases hphase : s.rx.phase with
  | idle => simp [hphase] at hflight
  | awaitStart => cases p; exacts [rxAwaitStartFalling_handled h hack, yields_next (.inl h)]
  | startLow => cases p; exacts [wrong, rxStartLowRising_handled h hack (htref (by simp [hphase]))]
  | startHigh => cases p; exacts [rxStartHighFalling_handled h hack (htref (by simp [hphase])), wrong]
  | dataLow => cases p; exacts [wrong, rxDataLowRising_handled h hack (htref (by simp [hphase]))]
  | dataHigh => cases p; exacts [rxDataHighFalling_handled h hack (htref (by simp [hphase])), wrong]
  | eomLow => cases p; exacts [wrong, rxEomLowRising_handled h hack (htref (by simp [hphase]))]
  | eomHigh => cases p; exacts [rxEomHighFalling_handled h hack (htref (by simp [hphase])), wrong]
  | ackLow => cases p; exacts [wrong, rxAckLowRising_handled h hack (htref (by simp [hphase]))]
  | ackHigh => cases p; exacts [rxAckHighFalling_handled h hack (htref (by simp [hphase])), wrong]
  | done => simp [hphase] at hflight
  | abort => simp [hphase] at hflight

/-! ### The handler's exit -/

theorem rxExit_of_inFlight (h : s.receiveInFlight = true) : rxExit s = { s with edgeArmed := true } := by
  unfold rxExit
  split
  · next hphase => simp [State.receiveInFlight, hphase] at h
  · next hphase => simp [State.receiveInFlight, hphase] at h
  · rfl

theorem rxExit_of_ended (h : s.rx.phase = .done ∨ s.rx.phase = .abort) : rxExit s = s := by
  obtain h | h := h <;> simp [rxExit, h]

theorem Handled.receiverKept_rxExit (h : Handled m) : ReceiverKept (rxExit m) := by
  obtain h | h := h
  · rw [rxExit_of_inFlight h.going.inFlight]
    have going : ReceiveGoing { m with edgeArmed := true } :=
      ⟨h.going.inFlight, h.going.slot, h.going.target, h.going.tref, h.going.drive, h.going.timer, h.going.ack⟩
    exact ⟨.inl (State.receiverRunning_iff.2 ⟨going, rfl⟩), h.buf⟩
  · rw [rxExit_of_ended h.phase]
    exact ⟨.inr h.ended, h.buf⟩

theorem rxHandle_receiverKept {e : Edge} (h : ReceiveGoing s) (he : s.edgePending = some e)
    (hbuf : s.rx.buf.wf = true) : Yields ReceiverKept (rxHandle e.polarity s) :=
  yields_andThen (rxTransition_handled e.polarity (h.inHandler_rxEntry hbuf) (h.ackOff_of_edge he)) fun _ hm =>
    yields_next hm.receiverKept_rxExit

/-! ### The ACK release (R262) -/

/-- The release ends the drive, its flag and its timer together, and may leave the rising edge pending (R101). -/
theorem ReceiveGoing.rxaRelease (h : ReceiveGoing s) : ReceiveGoing (rxaRelease s) := by
  have hflight : (Machine.rxaRelease s).receiveInFlight = s.receiveInFlight := by
    simp [State.receiveInFlight, Machine.rxaRelease]
  exact
    { inFlight := hflight.trans h.inFlight
      slot := by simpa [Machine.rxaRelease] using h.slot
      target := by simpa [Machine.rxaRelease] using h.target
      tref := by simpa [Machine.rxaRelease] using h.tref
      drive := by simp [Machine.rxaRelease]
      timer := by simp [Machine.rxaRelease]
      ack := by simp [Machine.rxaRelease] }

end Sys2Proof.Machine
end

section
/-! PROOFS. The transmitter keeps its part of the discipline (R303 to R314): every callback but Done's arms the next
one, and the line is driven in the phases that hold it low. -/

namespace Sys2Proof.Machine

variable {s t : State}

/-- A callback at work: its timer has fired, edges are disarmed as in every send. -/
structure InCallback (s : State) : Prop where
  inFlight : s.tx.phase ≠ .idle
  noTimer : s.txTimer = none
  len : s.tx.len.isSome = true
  slot : s.notifySlot = none
  drive : s.txDrive = s.tx.phase.drivesLow
  disarmed : s.edgeArmed = false

/-- What a callback leaves: the send goes on or has ended; the frame and the pending edge are as they were. -/
structure TransmitterKept (s t : State) : Prop where
  runsOrEnded : TransmitterRunning t ∨ t.transmitterEnded = true
  frame : t.tx.frame = s.tx.frame
  edgePending : t.edgePending = s.edgePending

theorem TransmitterRunning.inCallback (h : TransmitterRunning s) (harmed : s.edgeArmed = false) :
    InCallback { s with txTimer := none } := ⟨h.inFlight, rfl, h.len, h.slot, h.drive, harmed⟩

/-- With edges disarmed the transmitter's drive makes no edge (R566). -/
theorem State.driveTx_of_disarmed (h : s.edgeArmed = false) (low : Bool) :
    s.driveTx low = { s with txDrive := low } := lineChange_disarmed h

/-- A callback that returns a delay goes to a phase whose drive is the one it leaves on the line. -/
theorem InCallback.txReturn {tx : Tx} {low : Bool} (h : InCallback s) (a : Alarm) (delay : Nat)
    (hphase : tx.phase ≠ .idle) (hdrive : low = tx.phase.drivesLow) (hlen : tx.len = s.tx.len := by rfl)
    (hframe : tx.frame = s.tx.frame := by rfl) :
    Yields (TransmitterKept s) (txReturn a delay { s with txDrive := low, tx := tx }) :=
  yields_next ⟨.inl ⟨hphase, rfl, hlen ▸ h.len, h.slot, hdrive⟩, hframe, rfl⟩

/-- A callback that drives the line on its way to the next phase. -/
theorem InCallback.driveReturn {tx : Tx} {low : Bool} (h : InCallback s) (a : Alarm) (delay : Nat)
    (hphase : tx.phase ≠ .idle) (hdrive : low = tx.phase.drivesLow)
    (hlen : tx.len = (s.driveTx low).tx.len := by rfl) (hframe : tx.frame = (s.driveTx low).tx.frame := by rfl) :
    Yields (TransmitterKept s) (Machine.txReturn a delay { s.driveTx low with tx := tx }) := by
  rw [State.driveTx_tx] at hlen hframe
  rw [State.driveTx_of_disarmed h.disarmed]
  exact h.txReturn a delay hphase hdrive hlen hframe

theorem txDataHighCallback_kept (a : Alarm) (h : InCallback s) :
    Yields (TransmitterKept s) (txDataHighCallback a s) := by
  unfold txDataHighCallback
  simp only [State.driveTx_of_disarmed h.disarmed]
  split <;> exact h.txReturn _ _ (by simp) rfl

theorem txAckWaitCallback_kept (a : Alarm) (h : InCallback s) (hdrive : s.txDrive = false) :
    Yields (TransmitterKept s) (txAckWaitCallback a s) :=
  yields_withTxLen h.len fun n => by
    split <;> exact h.txReturn (low := s.txDrive) _ _ (by simp) hdrive

/-- The Done callback leaves the result in the slot and no further callback (R314). -/
theorem txDoneCallback_kept (h : InCallback s) (hdrive : s.txDrive = false) :
    Yields (TransmitterKept s) (txDoneCallback s) :=
  yields_notify h.slot
    ⟨.inr (State.transmitterEnded_iff.2 ⟨⟨rfl, h.noTimer, hdrive⟩, _, rfl⟩), rfl, rfl⟩

/-- Every callback of a send in flight, phase by phase. -/
theorem txCallback_kept (a : Alarm) (h : InCallback s) : Yields (TransmitterKept s) (txCallback a s) := by
  unfold txCallback
  cases hphase : s.tx.phase with
  | idle => exact absurd hphase h.inFlight
  | startLow => exact h.driveReturn _ _ (by simp) rfl
  | startHigh => exact h.driveReturn _ _ (by simp) rfl
  | dataLow => exact h.driveReturn _ _ (by simp) rfl
  | dataHigh => exact txDataHighCallback_kept a h
  | eomLow => exact yields_withTxLen h.len fun n => h.driveReturn _ _ (by simp) rfl
  | eomHigh => exact yields_withTxLen h.len fun n => h.driveReturn _ _ (by simp) rfl
  | ackLow => exact h.driveReturn _ _ (by simp) rfl
  | ackHigh => exact h.driveReturn _ _ (by simp) rfl
  | ackWait => exact txAckWaitCallback_kept a h (by rw [h.drive, hphase]; rfl)
  | done => exact txDoneCallback_kept h (by rw [h.drive, hphase]; rfl)

end Sys2Proof.Machine
end

section
/-! PROOFS. PC's program keeps the discipline (R160, R511, R520, R521): between two operations the bus is idle, every
operation starts from there, and every frame it sends has 1 to 16 bytes. -/

namespace Sys2Proof.Machine

variable {s t : State}

/-! ### Frames that may be sent (R361) -/

theorem sendable_iff {f : List Byte} : sendable f = true ↔ 1 ≤ f.length ∧ f.length ≤ 16 := by
  simp [sendable]

theorem sendable_buildFrame {la dst : LogicalAddr} {op : Byte} {ops : List Byte} (h : ops.length ≤ 14) :
    sendable (buildFrame la dst op ops) = true := by
  rw [sendable_iff]
  simp only [buildFrame, List.length_cons]
  omega

theorem sendable_setOsdName (la d : LogicalAddr) : sendable (frameSetOsdName la d) = true :=
  sendable_buildFrame Config.osdName_length_le

theorem sendable_reportPhysicalAddress (la : LogicalAddr) (pa : PhysicalAddr) :
    sendable (frameReportPhysicalAddress la pa) = true := rfl

/-- Every action of this result's next state may be carried out. -/
def ActsSendable : Result → Prop := Answers fun t => t.pc.actions.all Action.sendable = true

theorem actsSendable_react {as : List Action} (h : as.all Action.sendable = true) : ActsSendable (react as s) :=
  answers_next.2 h

theorem actsSendable_replyIfUnicast {build : LogicalAddr → LogicalAddr → List Byte} {h : Header}
    (hbuild : ∀ la d, sendable (build la d) = true) : ActsSendable (replyIfUnicast build h s) :=
  answers_withLa fun la => actsSendable_react <| by
    split
    · simpa [Action.sendable] using hbuild la h.init
    · rfl

theorem actsSendable_routingReply (operand : Option PhysicalAddr) : ActsSendable (routingReply operand s) := by
  unfold routingReply
  split
  · exact answers_withLa fun la => actsSendable_react rfl
  · exact actsSendable_react rfl

theorem actsSendable_reannounceOnCue (h : Header) : ActsSendable (reannounceOnCue h s) :=
  actsSendable_react (by split <;> rfl)

theorem sendable_pressReaction (ops : List Byte) : (pressReaction ops).sendable = true := by
  unfold pressReaction
  split
  · rfl
  · split <;> rfl

/-- Every message's reactions: a reply is built, a key or a log event sends nothing. -/
theorem exec_actsSendable (i : Instr) (s : State) : ActsSendable (exec i s) := by
  cases i with
  | userControlPressed h ops => exact actsSendable_react (by simp [sendable_pressReaction])
  | giveOsdName h ops => exact actsSendable_replyIfUnicast sendable_setOsdName
  | giveAudioStatus h ops => exact actsSendable_replyIfUnicast fun _ _ => rfl
  | giveSystemAudioModeStatus h ops => exact actsSendable_replyIfUnicast fun _ _ => rfl
  | givePhysicalAddress h ops =>
    exact actsSendable_replyIfUnicast (build := fun la _ => frameReportPhysicalAddress la s.pc.pa) fun _ _ => rfl
  | giveDeviceVendorId h ops =>
    exact actsSendable_replyIfUnicast (build := fun la _ => frameDeviceVendorId la) fun _ _ => rfl
  | giveDevicePowerStatus h ops => exact actsSendable_replyIfUnicast fun _ _ => rfl
  | getCecVersion h ops => exact actsSendable_replyIfUnicast fun _ _ => rfl
  | routingChange h ops => exact actsSendable_routingReply _
  | setStreamPath h ops => exact actsSendable_routingReply _
  | reportPhysicalAddress h ops => exact actsSendable_reannounceOnCue h
  | deviceVendorId h ops => exact actsSendable_reannounceOnCue h
  | _ => exact actsSendable_react rfl

/-- With `pc.LA` known an instruction only hands a list of actions to ACT, each of which can be carried out. -/
theorem exec_of_la (hla : s.pc.la.isSome = true) (i : Instr) :
    ∃ as, as.all Action.sendable = true ∧ exec i s = react as s := by
  obtain ⟨as, has⟩ | ⟨hnone, -⟩ := exec_react i s
  · exact ⟨as, exec_actsSendable i s _ has, has⟩
  · simp [hnone] at hla

/-- A frame of 1 to 16 bytes is a message (R194, R360). -/
theorem decode_of_length {f : List Byte} (hpos : 1 ≤ f.length) (hle : f.length ≤ 16) :
    ∃ i, decode f = .message i := by
  match f with
  | [] => simp at hpos
  | [b] => exact ⟨_, rfl⟩
  | b :: op :: ops =>
    have hops : ops.length ≤ 14 := Nat.le_of_add_le_add_right (b := 2) hle
    exact ⟨_, if_pos hops⟩

/-! ### Between two operations -/

/-- What holds whenever PC is in no operation on the bus, whatever its place. -/
structure Resting (s : State) : Prop where
  rxBuf : s.rx.buf.wf = true
  txFrame : s.tx.frame.wf = true
  laCandidate : s.pc.laIsCandidate = true
  actions : s.pc.actions.all Action.sendable = true
  bus : BusIdle s

theorem Disciplined.resting {op : PcOp} (h : Disciplined s) (hop : s.pc.op = op)
    (hleaves : op.leavesBus = true := by rfl) : Resting s :=
  ⟨h.rxBuf, h.txFrame, h.laCandidate, h.actions, (State.busFitsPc_of_leavesBus (hop ▸ hleaves)).1 h.bus⟩

theorem Resting.disciplined (h : Resting s) (hop : s.pc.op.leavesBus = true) (hfits : s.pc.opFitsPoint = true)
    (hla : s.pc.laKnown = true) (hframe : s.frameAtDispatch = true) : Disciplined s :=
  ⟨h.rxBuf, h.txFrame, hfits, hla, h.laCandidate, hframe, h.actions, (State.busFitsPc_of_leavesBus hop).2 h.bus⟩

/-- The state differs in no field the bus is made of: PC, the log, the key channel and the EDID transaction may have
changed. -/
structure SameBus (s t : State) : Prop where
  rx : t.rx = s.rx
  tx : t.tx = s.tx
  edgeArmed : t.edgeArmed = s.edgeArmed
  edgePending : t.edgePending = s.edgePending
  rxDrive : t.rxDrive = s.rxDrive
  txDrive : t.txDrive = s.txDrive
  txTimer : t.txTimer = s.txTimer
  rxaTimer : t.rxaTimer = s.rxaTimer
  freeTimer : t.freeTimer = s.freeTimer
  notifySlot : t.notifySlot = s.notifySlot

theorem Resting.congr (h : Resting s) (hla : t.pc.laIsCandidate = true)
    (hactions : t.pc.actions.all Action.sendable = true)
    (hsame : SameBus s t := by exact ⟨rfl, rfl, rfl, rfl, rfl, rfl, rfl, rfl, rfl, rfl⟩) : Resting t where
  rxBuf := hsame.rx ▸ h.rxBuf
  txFrame := hsame.tx ▸ h.txFrame
  laCandidate := hla
  actions := hactions
  bus :=
    { receiver := h.bus.receiver.congr hsame.rx hsame.edgeArmed hsame.edgePending hsame.rxDrive hsame.rxaTimer
      transmitter := h.bus.transmitter.congr hsame.tx hsame.txTimer hsame.txDrive
      slot := hsame.notifySlot.trans h.bus.slot
      freeTimer := hsame.freeTimer.trans h.bus.freeTimer }

/-- PC is at another place, with its address and its actions as before. -/
theorem Resting.moved (h : Resting s) (hop : t.pc.op.leavesBus = true) (hfits : t.pc.opFitsPoint = true)
    (hknown : t.pc.laKnown = true) (hframe : t.frameAtDispatch = true) (hla : t.pc.la = s.pc.la := by rfl)
    (hactions : t.pc.actions = s.pc.actions := by rfl)
    (hsame : SameBus s t := by exact ⟨rfl, rfl, rfl, rfl, rfl, rfl, rfl, rfl, rfl, rfl⟩) : Disciplined t := by
  have hcandidate : t.pc.laIsCandidate = true := by simpa only [Pc.laIsCandidate, hla] using h.laCandidate
  exact (h.congr hcandidate (hactions ▸ h.actions) hsame).disciplined hop hfits hknown hframe

theorem Pc.laKnown_of_isSome {p : Pc} (h : p.la.isSome = true) : p.laKnown = true := by
  unfold Pc.laKnown
  split
  · rfl
  · rfl
  · rfl
  · exact h

theorem State.frameAtDispatch_of_ne (h : s.pc.point ≠ .dispatch) : s.frameAtDispatch = true := by
  simp [State.frameAtDispatch, h]

/-- PC at the first line of a label. -/
theorem Resting.goto (h : Resting s) (l : Point) (hla : (s.goto l).pc.laKnown = true)
    (hframe : (s.goto l).frameAtDispatch = true) : Disciplined (s.goto l) :=
  h.moved rfl rfl hla hframe

/-- PC at another place of its label's code. -/
theorem Resting.atOp {op : PcOp} (h : Resting s) (hop : op.leavesBus = true)
    (hfits : (s.atOp op).pc.opFitsPoint = true) (hla : s.pc.laKnown = true) (hframe : s.frameAtDispatch = true) :
    Disciplined (s.atOp op) :=
  h.moved hop hfits hla hframe

/-! ### Sending (R380) -/

theorem sendStart_disciplined {why : SendFor} {f : List Byte} (h : Resting s) (hf : sendable f = true)
    (hfits : (s.atOp (.freeWait why f)).pc.opFitsPoint = true) (hla : s.pc.laKnown = true)
    (hframe : s.frameAtDispatch = true) : Yields Disciplined (sendStart why f s) := by
  obtain ⟨hrx, htx, hslot, -⟩ := h.bus
  refine ⟨_, sendStart_eq_next.2 ⟨sendable_iff.1 hf, ⟨htx.idle, hslot, hrx.disarmed, hrx.ackOff⟩, rfl⟩, ?_⟩
  exact
    { rxBuf := h.rxBuf
      txFrame := h.txFrame
      opFits := hfits
      laKnown := hla
      laCandidate := h.laCandidate
      frame := hframe
      actions := h.actions
      bus := (State.busFitsPc_of_freeWait rfl).2
        ⟨hrx.congr rfl rfl rfl rfl rfl, htx.congr rfl rfl rfl, hslot, hf, rfl⟩ }

theorem announceStart_disciplined (h : Resting s) (hpoint : s.pc.point = .announce ∨ s.pc.point = .act)
    (hla : s.pc.la.isSome = true) : Yields Disciplined (announceStart s) := by
  refine yields_withLa hla fun la => sendStart_disciplined h (sendable_reportPhysicalAddress la s.pc.pa) ?_
    (Pc.laKnown_of_isSome hla) (State.frameAtDispatch_of_ne ?_)
  · simpa [Pc.opFitsPoint] using hpoint
  · obtain hp | hp := hpoint <;> simp [hp]

/-- The bus-free wait is over: the frame is written and the first callback armed. -/
theorem sendLaunch_disciplined {why : SendFor} {f : List Byte} (h : Disciplined s)
    (hop : s.pc.op = .freeWait why f) (hcount : s.pc.freeCount = 7) : Yields Disciplined (sendLaunch why f s) := by
  obtain ⟨hrx, htx, hslot, hf, hfree⟩ := (State.busFitsPc_of_freeWait hop).1 h.bus
  obtain ⟨-, hle⟩ := sendable_iff.1 hf
  have hfree : s.freeTimer = none := by simpa [hcount, Config.freeBitCount] using hfree
  have hfits : (s.atOp (.sending why)).pc.opFitsPoint = true := by
    have hsame := h.opFits
    rw [Pc.opFitsPoint, hop] at hsame
    cases why <;> exact hsame
  have hrun : TransmitterRunning { s with
      tx :=
        { phase := .startLow, frame := s.tx.frame.putBytes 0 f, len := some ⟨f.length, by omega⟩, byte := 0, bit := 7
          t0 := none, ack := true }
      txTimer := some (s.alarm s.clock 0)
      pc := { s.pc with op := .sending why } } := ⟨by simp, rfl, rfl, hslot, htx.released⟩
  rw [sendLaunch_of_length (by omega)]
  exact yields_next
    { rxBuf := h.rxBuf
      txFrame := Memory.wf_putBytes h.txFrame (by omega)
      opFits := hfits
      laKnown := h.laKnown
      laCandidate := h.laCandidate
      frame := h.frame
      actions := h.actions
      bus := (State.busFitsPc_of_sending rfl).2 ⟨hrx.congr rfl rfl rfl rfl rfl, hfree, .inl hrun⟩ }

/-! ### Receiving (R383) -/

theorem receiveStart_disciplined (h : Resting s) (hpoint : s.pc.point = .receive) (hla : s.pc.la.isSome = true) :
    Yields Disciplined (receiveStart s) := by
  obtain ⟨hrx, htx, hslot, hfree⟩ := h.bus
  obtain ⟨la, hla'⟩ := Option.isSome_iff_exists.1 hla
  have hrun : ReceiveGoing { s with
      rx :=
        { phase := .awaitStart, byte := 0, bit := 7, tref := none, ackActive := false, eom := false
          target := some la, buf := [], len := none, cause := 0 }
      edgeArmed := true
      pc := { s.pc with op := .receiving } } :=
    ⟨rfl, hslot, rfl, .inl rfl, hrx.released, by simp [hrx.noTimer], by simp⟩
  refine ⟨_, receiveStart_eq_next.2 ⟨⟨htx.idle, hslot, hrx.ackOff⟩, la, hla', rfl⟩, ?_⟩
  exact
    { rxBuf := Memory.wf_nil
      txFrame := h.txFrame
      opFits := by simp [Pc.opFitsPoint, hpoint]
      laKnown := Pc.laKnown_of_isSome hla
      laCandidate := h.laCandidate
      frame := State.frameAtDispatch_of_ne (by simp [hpoint])
      actions := h.actions
      bus := (State.busFitsPc_of_receiving rfl).2
        ⟨htx.congr rfl rfl rfl, hfree, .inl (State.receiverRunning_iff.2 ⟨hrun, rfl⟩)⟩ }

/-- The result of a receive: 0 makes PC receive again, any other length is a frame to dispatch (R385, R511). -/
theorem receiveResult_disciplined {n : Fin 17} (h : Resting s) (hla : s.pc.la.isSome = true)
    (hlen : s.rx.len = some n) : Disciplined (receiveResult n s) := by
  unfold receiveResult
  split
  · exact h.goto .receive hla rfl
  · next hn => exact h.goto .dispatch hla (by simp [State.frameAtDispatch, hlen, hn])

/-! ### Allocation and resolve (R470, R515) -/

theorem candidates_contains : ∀ i : Fin 4, Config.candidates.toList.contains Config.candidates[i] = true := by
  decide

theorem afterAlloc_of_alloc (h : s.pc.point = .alloc) : afterAlloc s = s.goto .announce := by simp [afterAlloc, h]

theorem afterAlloc_of_act (h : s.pc.point = .act) : afterAlloc s = s.atOp .announce := by simp [afterAlloc, h]

theorem afterAlloc_disciplined (h : Resting s) (hpoint : s.pc.point = .alloc ∨ s.pc.point = .act)
    (hla : s.pc.la.isSome = true) : Disciplined (afterAlloc s) := by
  obtain hp | hp := hpoint
  · rw [afterAlloc_of_alloc hp]
    exact h.goto .announce hla rfl
  · rw [afterAlloc_of_act hp]
    exact h.atOp rfl (by simp [Pc.opFitsPoint, hp]) (Pc.laKnown_of_isSome hla)
      (State.frameAtDispatch_of_ne (by simp [hp]))

/-- PC has taken the result of a poll: the next candidate, or an address that is one of CANDIDATES (R90, R515). -/
theorem allocResult_disciplined (acked : Bool) (h : Resting s) (hpoint : s.pc.point = .alloc ∨ s.pc.point = .act)
    (hla : s.pc.laKnown = true) : Disciplined (allocResult acked s) := by
  have hframe : s.frameAtDispatch = true :=
    State.frameAtDispatch_of_ne (by obtain hp | hp := hpoint <;> simp [hp])
  unfold allocResult
  split
  · split
    · exact h.moved rfl (by simpa [Pc.opFitsPoint] using hpoint) hla hframe
    · exact afterAlloc_disciplined (h.congr (candidates_contains 3) h.actions) hpoint rfl
  · exact afterAlloc_disciplined (h.congr (candidates_contains s.pc.allocI) h.actions) hpoint rfl

/-- The end of a resolve writes `pc.PA` and the log, and takes the answer (R470, R490). -/
theorem resolveEnd_eq (s : State) : ∃ pa log,
    resolveEnd s = { s with pc := { s.pc with pa := pa }, logq := log, edidReq := none, edidRsp := none } := by
  unfold resolveEnd writePa
  split
  · exact ⟨_, _, rfl⟩
  · exact ⟨_, _, rfl⟩

theorem afterResolve_of_resolve (h : s.pc.point = .resolve) : afterResolve s = s.goto .alloc := by
  simp [afterResolve, h]

theorem afterResolve_of_act (h : s.pc.point = .act) : afterResolve s = allocStart s := by simp [afterResolve, h]

theorem afterResolve_disciplined (h : Resting s) (hpoint : s.pc.point = .resolve ∨ s.pc.point = .act)
    (hla : s.pc.laKnown = true) : Disciplined (afterResolve s) := by
  obtain hp | hp := hpoint
  · rw [afterResolve_of_resolve hp]
    exact h.goto .alloc rfl rfl
  · rw [afterResolve_of_act hp]
    exact h.moved rfl (by simp [Pc.opFitsPoint, hp]) hla (State.frameAtDispatch_of_ne (by simp [hp]))

theorem resolveStart_disciplined (h : Resting s) (hpoint : s.pc.point = .resolve ∨ s.pc.point = .act)
    (hla : s.pc.laKnown = true) : Disciplined (resolveStart s) :=
  h.moved rfl (by simpa [Pc.opFitsPoint] using hpoint) hla
    (State.frameAtDispatch_of_ne (by obtain hp | hp := hpoint <;> simp [hp]))

/-! ### What PC does with the result of a send -/

theorem afterAnnounce_of_announce (h : s.pc.point = .announce) : afterAnnounce s = s.goto .receive := by
  simp [afterAnnounce, h]

theorem afterAnnounce_of_act (h : s.pc.point = .act) : afterAnnounce s = s.atOp .run := by simp [afterAnnounce, h]

theorem afterAnnounce_disciplined (h : Resting s) (hpoint : s.pc.point = .announce ∨ s.pc.point = .act)
    (hla : s.pc.la.isSome = true) : Disciplined (afterAnnounce s) := by
  obtain hp | hp := hpoint
  · rw [afterAnnounce_of_announce hp]
    exact h.goto .receive hla rfl
  · rw [afterAnnounce_of_act hp]
    exact h.atOp rfl rfl (Pc.laKnown_of_isSome hla) (State.frameAtDispatch_of_ne (by simp [hp]))

/-- The discipline at a label past the startup: `pc.LA` has a value (R521). -/
theorem Disciplined.la_isSome {l : Point} (h : Disciplined s) (hp : s.pc.point = l)
    (hl : l ≠ .boot ∧ l ≠ .resolve ∧ l ≠ .alloc := by decide) : s.pc.la.isSome = true := by
  obtain ⟨hboot, hresolve, halloc⟩ := hl
  have hla := h.laKnown
  rw [Pc.laKnown, hp] at hla
  cases l with
  | boot => exact absurd rfl hboot
  | resolve => exact absurd rfl hresolve
  | alloc => exact absurd rfl halloc
  | _ => exact hla

/-- A send has ended and PC takes its result: from there on PC is between two operations again. -/
theorem Disciplined.resting_of_txDone {why : SendFor} {acked : Bool} (h : Disciplined s)
    (hop : s.pc.op = .sending why) (hslot : s.notifySlot = some (.txDone acked)) : Resting s.takeNotification := by
  obtain ⟨hrx, hfree, hrun | hend⟩ := (State.busFitsPc_of_sending hop).1 h.bus
  · simp [hrun.slot] at hslot
  · obtain ⟨htx, -⟩ := State.transmitterEnded_iff.1 hend
    exact ⟨h.rxBuf, h.txFrame, h.laCandidate, h.actions,
      ⟨hrx.congr rfl rfl rfl rfl rfl, htx.congr rfl rfl rfl, rfl, hfree⟩⟩

/-- A receive has ended and PC takes its result, which is also in `rx.len`. -/
theorem Disciplined.resting_of_rxDone {n : Fin 17} (h : Disciplined s) (hop : s.pc.op = .receiving)
    (hslot : s.notifySlot = some (.rxDone n)) : Resting s.takeNotification ∧ s.rx.len = some n := by
  obtain ⟨htx, hfree, hrun | hend⟩ := (State.busFitsPc_of_receiving hop).1 h.bus
  · simp [(State.receiverRunning_iff.1 hrun).1.slot] at hslot
  · obtain ⟨hrx, m, hm, hlen⟩ := State.receiverEnded_iff.1 hend
    have hmn : m = n := by simpa [hslot] using hm.symm
    exact ⟨⟨h.rxBuf, h.txFrame, h.laCandidate, h.actions,
      ⟨hrx.congr rfl rfl rfl rfl rfl, htx.congr rfl rfl rfl, rfl, hfree⟩⟩, hmn ▸ hlen⟩

theorem sendResult_disciplined {why : SendFor} {acked : Bool} (h : Disciplined s) (hop : s.pc.op = .sending why)
    (hslot : s.notifySlot = some (.txDone acked)) :
    Disciplined (sendResult why acked s.takeNotification) := by
  have hrest := h.resting_of_txDone hop hslot
  have hfits := h.opFits
  cases why with
  | poll =>
    have hpoint : s.pc.point = .alloc ∨ s.pc.point = .act := by simpa [Pc.opFitsPoint, hop] using hfits
    exact allocResult_disciplined acked hrest hpoint h.laKnown
  | announce =>
    have hpoint : s.pc.point = .announce ∨ s.pc.point = .act := by simpa [Pc.opFitsPoint, hop] using hfits
    exact afterAnnounce_disciplined hrest hpoint (hpoint.elim (h.la_isSome ·) (h.la_isSome ·))
  | reply => exact hrest.atOp rfl rfl h.laKnown h.frame

/-! ### Actions (R513, R585) -/

theorem emitKey_disciplined (k : Byte) (h : Disciplined s) (hop : s.pc.op = .run) (hpoint : s.pc.point = .act) :
    Disciplined (emitKey k s) := by
  have hrest := h.resting hop
  unfold emitKey
  split
  · exact hrest.moved (by simp [hop, PcOp.leavesBus]) h.opFits h.laKnown h.frame
  · exact hrest.moved rfl (by simp [Pc.opFitsPoint, hpoint]) h.laKnown h.frame

theorem emitKeyEnd_disciplined {since : Time} {k : Byte} (h : Disciplined s) (hop : s.pc.op = .keying k since) :
    Disciplined (emitKeyEnd k s) := by
  have hrest := h.resting hop
  unfold emitKeyEnd
  split <;> exact hrest.moved rfl rfl h.laKnown h.frame

theorem execute_disciplined {a : Action} (h : Disciplined s) (hop : s.pc.op = .run) (hpoint : s.pc.point = .act)
    (ha : a.sendable = true) : Yields Disciplined (execute a s) := by
  have hrest := h.resting hop
  cases a with
  | send g => exact sendStart_disciplined hrest ha (by simp [Pc.opFitsPoint, hpoint]) h.laKnown h.frame
  | key k => exact yields_next (emitKey_disciplined k h hop hpoint)
  | log e => exact yields_next (hrest.moved (by simp [hop, PcOp.leavesBus]) h.opFits h.laKnown h.frame)
  | reannounce => exact yields_next (resolveStart_disciplined hrest (.inr hpoint) h.laKnown)

theorem actStep_disciplined (h : Disciplined s) (hop : s.pc.op = .run) (hpoint : s.pc.point = .act) :
    Yields Disciplined (actStep s) := by
  have hrest := h.resting hop
  have hall := h.actions
  unfold actStep
  split
  · exact yields_next (hrest.goto .receive (h.la_isSome hpoint) rfl)
  · next a rest has =>
    simp only [has, List.all_cons, Bool.and_eq_true] at hall
    obtain ⟨ha, hrestAll⟩ := hall
    have hcut : Disciplined { s with pc := { s.pc with actions := rest } } :=
      Resting.disciplined (hrest.congr h.laCandidate hrestAll) (by simp [hop, PcOp.leavesBus])
        (by simp [Pc.opFitsPoint, hop]) h.laKnown h.frame
    exact execute_disciplined hcut hop hpoint ha

/-! ### The program (R511) -/

/-- At DISPATCH a frame of 1 to 16 bytes is delivered, so it is a message, and its action list goes to ACT. -/
theorem dispatchStep_disciplined (h : Disciplined s) (hop : s.pc.op = .run) (hpoint : s.pc.point = .dispatch) :
    Yields Disciplined (dispatchStep s) := by
  have hla := h.la_isSome hpoint
  have hframe := h.frame
  unfold dispatchStep
  split
  · next hlen => simp [State.frameAtDispatch, hpoint, hlen] at hframe
  · next n hlen =>
    have hn : n ≠ 0 := by simpa [State.frameAtDispatch, hpoint, hlen] using hframe
    have hlength : (s.deliveredBytes n).length = n.val := by simp [State.deliveredBytes, Memory.bytes]
    obtain ⟨i, hi⟩ := decode_of_length (f := s.deliveredBytes n) (by omega) (by omega)
    obtain ⟨as, hall, has⟩ := exec_of_la hla i
    rw [hi]
    simp only [has, react_eq]
    exact yields_next (Resting.disciplined ((h.resting hop).congr h.laCandidate hall)
      (by simp [hop, PcOp.leavesBus]) (by simp [Pc.opFitsPoint, hop]) (Pc.laKnown_of_isSome hla) rfl)

theorem labelStep_disciplined (h : Disciplined s) (hop : s.pc.op = .run) : Yields Disciplined (labelStep s) := by
  have hrest := h.resting hop
  unfold labelStep
  cases hp : s.pc.point with
  | boot => exact yields_next (hrest.goto .resolve rfl rfl)
  | resolve => exact yields_next (resolveStart_disciplined hrest (.inl hp) h.laKnown)
  | alloc =>
    exact yields_next (hrest.moved rfl (by simp [Pc.opFitsPoint, hp]) h.laKnown
      (State.frameAtDispatch_of_ne (by simp [hp])))
  | announce => exact announceStart_disciplined hrest (.inl hp) (h.la_isSome hp)
  | receive => exact receiveStart_disciplined hrest hp (h.la_isSome hp)
  | dispatch => exact dispatchStep_disciplined h hop hp
  | act => exact actStep_disciplined h hop hp

/-- PC goes on, from its label or from the operation whose condition holds, and keeps the discipline. -/
theorem pcStep_disciplined (h : Disciplined s) (hready : s.pcReady = true) : Yields Disciplined (pcStep s) := by
  have hfits := h.opFits
  unfold pcStep
  cases hop : s.pc.op with
  | run => exact labelStep_disciplined h hop
  | poll =>
    have hpoint : s.pc.point = .alloc ∨ s.pc.point = .act := by simpa [Pc.opFitsPoint, hop] using hfits
    exact sendStart_disciplined (h.resting hop) rfl (by simpa [Pc.opFitsPoint] using hpoint) h.laKnown h.frame
  | announce =>
    have hpoint : s.pc.point = .act := by simpa [Pc.opFitsPoint, hop] using hfits
    exact announceStart_disciplined (h.resting hop) (.inr hpoint) (h.la_isSome hpoint)
  | resolving =>
    have hpoint : s.pc.point = .resolve ∨ s.pc.point = .act := by simpa [Pc.opFitsPoint, hop] using hfits
    obtain ⟨pa, log, hend⟩ := resolveEnd_eq s
    dsimp only
    rw [hend]
    exact yields_next (afterResolve_disciplined ((h.resting hop).congr h.laCandidate h.actions) hpoint h.laKnown)
  | freeWait why f => exact sendLaunch_disciplined h hop (by simpa [State.pcReady, hop] using hready)
  | sending why =>
    dsimp only
    split
    · next acked hslot => exact yields_next (sendResult_disciplined h hop hslot)
    · exact yields_next h
  | receiving =>
    have hpoint : s.pc.point = .receive := by simpa [Pc.opFitsPoint, hop] using hfits
    dsimp only
    split
    · next n hslot =>
      obtain ⟨hrest, hlen⟩ := h.resting_of_rxDone hop hslot
      exact yields_next (receiveResult_disciplined hrest (h.la_isSome hpoint) hlen)
    · exact yields_next h
  | keying k since => exact yields_next (emitKeyEnd_disciplined h hop)

end Sys2Proof.Machine
end

section
/-! PROOFS. Every move keeps the discipline (R160, R242, R266, R570): the moves of the receiver, the transmitter and the
bus-free wait each in the one operation of PC that has them, the outside's in every state. -/

namespace Sys2Proof.Machine

variable {s t : State}

/-! ### Moves that leave the bus and PC alone -/

/-- The discipline reads the bus and PC only. -/
theorem Disciplined.congr (h : Disciplined s) (hpc : t.pc = s.pc)
    (hsame : SameBus s t := by exact ⟨rfl, rfl, rfl, rfl, rfl, rfl, rfl, rfl, rfl, rfl⟩) : Disciplined t := by
  obtain ⟨hrx, htx, harmed, hedge, hrxDrive, htxDrive, htxTimer, hrxaTimer, hfree, hslot⟩ := hsame
  have hdisciplined : t.disciplined = s.disciplined := by
    simp only [State.disciplined, State.frameAtDispatch, State.busFitsPc, State.receiverQuiet, State.transmitterQuiet,
      State.receiverRunning, State.receiverEnded, State.transmitterRunning, State.transmitterEnded,
      State.receiveInFlight, State.sendInFlight, hpc, hrx, htx, harmed, hedge, hrxDrive, htxDrive, htxTimer, hrxaTimer,
      hfree, hslot]
  rw [← State.disciplined_iff, hdisciplined]
  exact State.disciplined_iff.2 h

theorem State.edidAnswers_disciplined (r : EdidAnswer) (h : Disciplined s) : Disciplined (s.edidAnswers r) := by
  rw [State.edidAnswers_eq]
  split
  · exact h.congr rfl
  · exact h

/-- The next move is taken off the schedule, or a free one drawn: neither is the block's. -/
theorem State.nextMove_pc (s : State) : s.nextMove.2.pc = s.pc := by
  unfold State.nextMove
  split <;> rfl

theorem State.nextMove_sameBus (s : State) : SameBus s s.nextMove.2 := by
  unfold State.nextMove
  split <;> exact ⟨rfl, rfl, rfl, rfl, rfl, rfl, rfl, rfl, rfl, rfl⟩

theorem Disciplined.nextMove (h : Disciplined s) : Disciplined s.nextMove.2 :=
  h.congr (State.nextMove_pc s) (State.nextMove_sameBus s)

/-! ### Moves while a receive is in flight: RX, RXA, ENV -/

/-- A move inside `receive()` that keeps the receiver's part, and everything that is not the receiver's. -/
theorem Disciplined.of_receiverKept (h : Disciplined s) (hop : s.pc.op = .receiving) (hkept : ReceiverKept t)
    (htx : t.tx = s.tx) (hpc : t.pc = s.pc) (hdrive : t.txDrive = s.txDrive) (htimer : t.txTimer = s.txTimer)
    (hfree : t.freeTimer = s.freeTimer) : Disciplined t := by
  obtain ⟨hquiet, hnone, -⟩ := (State.busFitsPc_of_receiving hop).1 h.bus
  have hpoint : s.pc.point = .receive := by simpa [Pc.opFitsPoint, hop] using h.opFits
  exact
    { rxBuf := hkept.buf
      txFrame := htx ▸ h.txFrame
      opFits := hpc ▸ h.opFits
      laKnown := hpc ▸ h.laKnown
      laCandidate := hpc ▸ h.laCandidate
      frame := State.frameAtDispatch_of_ne (by simp [hpc, hpoint])
      actions := hpc ▸ h.actions
      bus := (State.busFitsPc_of_receiving (hpc ▸ hop)).2
        ⟨hquiet.congr htx htimer hdrive, hfree.trans hnone, hkept.runsOrEnded⟩ }

theorem rxStep_disciplined (h : Disciplined s) : Yields Disciplined (rxStep s) := by
  unfold rxStep
  split
  · exact yields_next h
  · next e he =>
    obtain hquiet | ⟨hop, hgoing, -⟩ := h.receiverQuiet_or
    · simp [hquiet.noEdge] at he
    · exact ((rxHandle_receiverKept hgoing he h.rxBuf).and_answers (rxHandle_keptByRx _ s)).mono fun t ⟨hkept, k⟩ =>
        h.of_receiverKept hop hkept k.tx k.pc k.txDrive k.txTimer k.freeTimer

theorem rxaStep_disciplined (h : Disciplined s) : Yields Disciplined (rxaStep s) := by
  unfold rxaStep
  split
  · next hfires =>
    obtain hquiet | ⟨hop, hgoing, harmed⟩ := h.receiverQuiet_or
    · simp [hquiet.noTimer] at hfires
    · obtain ⟨k, -, -, hkeepsArmed⟩ := keptByRxa_rxaRelease s
      have hbuf : (rxaRelease s).rx.buf = s.rx.buf := by simp [rxaRelease]
      exact yields_next (h.of_receiverKept hop
        ⟨.inl (State.receiverRunning_iff.2 ⟨hgoing.rxaRelease, hkeepsArmed.trans harmed⟩), hbuf ▸ h.rxBuf⟩
        k.tx k.pc k.txDrive k.txTimer k.freeTimer)
  · exact yields_next h

/-- While the receiver holds the ACK slot low, ENV cannot change the level, so it makes no edge (R100, R101). -/
theorem ReceiveGoing.driveEnv (low : Bool) (h : ReceiveGoing s) : ReceiveGoing (s.driveEnv low) where
  inFlight := by simpa [State.receiveInFlight] using h.inFlight
  slot := by simpa using h.slot
  target := by simpa using h.target
  tref := by simpa using h.tref
  drive := by simpa using h.drive
  timer := by simpa using h.timer
  ack := by
    intro hack
    rw [State.driveEnv_rx] at hack ⊢
    obtain ⟨hphase, hedge⟩ := h.ack hack
    have hdrive : s.rxDrive = true := h.drive.trans hack
    have hline : s.line = State.line { s with envLow := low } := by simp [State.line, hdrive]
    exact ⟨hphase, (lineChange_edgePending_of_same s _ hline).trans hedge⟩

theorem State.driveEnv_disciplined (low : Bool) (h : Disciplined s) : Disciplined (s.driveEnv low) := by
  obtain hquiet | ⟨hop, hgoing, harmed⟩ := h.receiverQuiet_or
  · have hdrive : s.driveEnv low = { s with envLow := low } := lineChange_disarmed hquiet.disarmed
    rw [hdrive]
    exact h.congr rfl
  · have hrun : (s.driveEnv low).receiverRunning = true :=
      State.receiverRunning_iff.2 ⟨hgoing.driveEnv low, by simpa using harmed⟩
    exact h.of_receiverKept hop ⟨.inl hrun, by simpa using h.rxBuf⟩ (by simp) (by simp) (by simp) (by simp) (by simp)

/-! ### Moves inside `send`: TX and the bus-free sample -/

/-- A move inside `send` that keeps the transmitter's part, and everything that is not the transmitter's. -/
theorem Disciplined.of_transmitterKept {why : SendFor} (h : Disciplined s) (hop : s.pc.op = .sending why)
    (hkept : TransmitterKept s t) (k : KeptByTx s t) : Disciplined t := by
  obtain ⟨hquiet, hnone, -⟩ := (State.busFitsPc_of_sending hop).1 h.bus
  have hframe : t.frameAtDispatch = s.frameAtDispatch := by simp only [State.frameAtDispatch, k.pc, k.rx]
  exact
    { rxBuf := k.rx ▸ h.rxBuf
      txFrame := hkept.frame ▸ h.txFrame
      opFits := k.pc ▸ h.opFits
      laKnown := k.pc ▸ h.laKnown
      laCandidate := k.pc ▸ h.laCandidate
      frame := hframe.trans h.frame
      actions := k.pc ▸ h.actions
      bus := (State.busFitsPc_of_sending (k.pc ▸ hop)).2
        ⟨hquiet.congr k.rx k.edgeArmed hkept.edgePending k.rxDrive k.rxaTimer, k.freeTimer.trans hnone,
          hkept.runsOrEnded⟩ }

theorem txStep_disciplined (h : Disciplined s) : Yields Disciplined (txStep s) := by
  unfold txStep
  split
  · exact yields_next h
  · next a ha =>
    split
    · obtain hquiet | ⟨hrx, why, hop, hrun⟩ := h.transmitterQuiet_or
      · simp [hquiet.noTimer] at ha
      · refine ((txCallback_kept a (hrun.inCallback hrx.disarmed)).and_answers (txCallback_keptByTx a _)).mono ?_
        intro t ⟨hkept, k⟩
        exact h.of_transmitterKept hop ⟨hkept.runsOrEnded, hkept.frame, hkept.edgePending⟩
          ((keptByTx_update s _ none _ _).trans k)
    · exact yields_next h

/-- The sample's timer is armed again until the count is full (R301). -/
theorem freeSample_freeTimer_isSome (a : Alarm) (s : State) :
    (freeSample a s).freeTimer.isSome = decide ((freeSample a s).pc.freeCount.val < Config.freeBitCount) := by
  simp only [freeSample]
  split
  · next h => exact (decide_eq_true h).symm
  · next h => exact (decide_eq_false h).symm

theorem freeStep_disciplined (h : Disciplined s) : Yields Disciplined (freeStep s) := by
  unfold freeStep
  split
  · exact yields_next h
  · next a ha =>
    split
    · obtain hnone | ⟨why, f, hop⟩ := h.freeTimer_or
      · simp [hnone] at ha
      · obtain ⟨hrx, htx, hslot, hf, -⟩ := (State.busFitsPc_of_freeWait hop).1 h.bus
        exact yields_next
          { rxBuf := h.rxBuf
            txFrame := h.txFrame
            opFits := h.opFits
            laKnown := h.laKnown
            laCandidate := h.laCandidate
            frame := h.frame
            actions := h.actions
            bus := (State.busFitsPc_of_freeWait (s := freeSample a s) hop).2
              ⟨hrx.congr rfl rfl rfl rfl rfl, htx.congr rfl rfl rfl, hslot, hf, freeSample_freeTimer_isSome a s⟩ }
    · exact yields_next h

/-! ### The moves and the step -/

theorem takeMove_disciplined (m : Move) (h : Disciplined s) : Yields Disciplined (takeMove m s) := by
  cases m with
  | rx => exact rxStep_disciplined h
  | rxa => exact rxaStep_disciplined h
  | tx => exact txStep_disciplined h
  | freeSample => exact freeStep_disciplined h
  | pc =>
    cases hready : s.pcReady with
    | true => exact takeMove_pc_of_ready hready ▸ pcStep_disciplined h hready
    | false => exact takeMove_pc_of_blocked hready ▸ yields_next h
  | wait us => exact yields_next (h.congr rfl)
  | env low => exact yields_next (State.driveEnv_disciplined low h)
  | edid r => exact yields_next (State.edidAnswers_disciplined r h)
  | host => exact yields_next (h.congr rfl)

theorem State.pcReady_of_pcRuns (h : s.pcRuns = true) : s.pcReady = true := by
  obtain hop | hop | hop := State.pcRuns_iff.1 h <;> simp [State.pcReady, hop]

theorem step_disciplined (h : Disciplined s) : Yields Disciplined (step s) := by
  cases hruns : s.pcRuns with
  | true =>
    rw [step_of_pcRuns h.halfDuplexKept hruns]
    exact pcStep_disciplined h (State.pcReady_of_pcRuns hruns)
  | false =>
    rw [step_of_pcBlocked h.halfDuplexKept hruns]
    exact takeMove_disciplined _ h.nextMove

end Sys2Proof.Machine

namespace Sys2Proof.Proofs

open Sys2Proof.Machine

/-- Settles O3: PC's own step and every move of another agent answer a next state that keeps the discipline, each part
of which is either the agent's to keep or not the agent's to write. -/
theorem stepKeepsDisciplineAndNeverFaults : Obligations.StepKeepsDisciplineAndNeverFaults := by
  intro s h
  exact (step_disciplined (State.disciplined_iff.1 h)).mono fun t ht => State.disciplined_iff.2 ht

/-- Settles O2: at reset the bus is idle and PC is at BOOT, so every part of the discipline evaluates to true. -/
theorem resetIsDisciplined : Obligations.ResetIsDisciplined := by
  unfold Obligations.ResetIsDisciplined
  decide

end Sys2Proof.Proofs
end

section
/-! PROOFS. A breach of the half-duplex discipline stops the machine (R160), and the two addresses change only between
bus operations (R164). -/

namespace Sys2Proof.Machine

variable {s m t : State}

/-! ### The breach (R160) -/

theorem State.receiveInFlight_iff :
    s.receiveInFlight = true ↔ s.rx.phase ≠ .idle ∧ s.rx.phase ≠ .done ∧ s.rx.phase ≠ .abort := by
  unfold State.receiveInFlight
  cases s.rx.phase <;> simp

theorem State.halfDuplexBroken_iff :
    s.halfDuplexBroken = true ↔
      s.tx.phase ≠ .idle ∧ ((s.rx.phase ≠ .idle ∧ s.rx.phase ≠ .done ∧ s.rx.phase ≠ .abort) ∨ s.edgeArmed = true) := by
  rw [State.halfDuplexBroken, Bool.and_eq_true, Bool.or_eq_true, State.receiveInFlight_iff, State.sendInFlight,
    bne_iff_ne]

theorem step_of_halfDuplexBroken (h : s.halfDuplexBroken = true) : step s = .fault .halfDuplex := by
  simp [step, h]

/-! ### When the addresses change (R164) -/

/-- `pc.LA` and `pc.PA` are as before. -/
def AddressesKept (s t : State) : Prop := t.pc.la = s.pc.la ∧ t.pc.pa = s.pc.pa

theorem addressesKept_of_pc (h : t.pc = s.pc) : AddressesKept s t := ⟨by rw [h], by rw [h]⟩

theorem AddressesKept.of_pc (h : AddressesKept m t) (hpc : m.pc = s.pc) : AddressesKept s t := by
  rwa [AddressesKept, hpc] at h

theorem sendStart_addressesKept (why : SendFor) (f : List Byte) (s : State) :
    Answers (AddressesKept s) (sendStart why f s) := by
  intro t ht
  obtain ⟨-, -, rfl⟩ := sendStart_eq_next.1 ht
  exact ⟨rfl, rfl⟩

theorem announceStart_addressesKept (s : State) : Answers (AddressesKept s) (announceStart s) :=
  answers_withLa fun _ => sendStart_addressesKept _ _ _

theorem sendLaunch_addressesKept (why : SendFor) (f : List Byte) (s : State) :
    Answers (AddressesKept s) (sendLaunch why f s) := by
  unfold sendLaunch
  split
  · exact answers_next.2 ⟨rfl, rfl⟩
  · exact answers_refused _

theorem receiveStart_addressesKept (s : State) : Answers (AddressesKept s) (receiveStart s) := by
  intro t ht
  obtain ⟨-, la, -, rfl⟩ := receiveStart_eq_next.1 ht
  exact ⟨rfl, rfl⟩

theorem receiveResult_addressesKept (n : Fin 17) (s : State) : AddressesKept s (receiveResult n s) := by
  unfold receiveResult
  split <;> exact ⟨rfl, rfl⟩

theorem emitKey_addressesKept (k : Byte) (s : State) : AddressesKept s (emitKey k s) := by
  unfold emitKey
  split <;> exact ⟨rfl, rfl⟩

theorem emitKeyEnd_addressesKept (k : Byte) (s : State) : AddressesKept s (emitKeyEnd k s) := by
  unfold emitKeyEnd
  split <;> exact ⟨rfl, rfl⟩

theorem dispatchStep_addressesKept (s : State) : Answers (AddressesKept s) (dispatchStep s) := by
  unfold dispatchStep
  split
  · exact answers_fault _
  · split
    · next i _ =>
      obtain ⟨as, has⟩ | ⟨-, hfault⟩ := exec_react i s
      · rw [has, react_eq]
        exact answers_next.2 ⟨rfl, rfl⟩
      · rw [hfault]
        exact answers_fault _
    · exact answers_fault _

theorem actStep_addressesKept (s : State) : Answers (AddressesKept s) (actStep s) := by
  unfold actStep
  split
  · exact answers_next.2 ⟨rfl, rfl⟩
  · next a rest _ =>
    cases a with
    | send g => exact sendStart_addressesKept _ _ { s with pc := { s.pc with actions := rest } }
    | key k => exact answers_next.2 (emitKey_addressesKept k { s with pc := { s.pc with actions := rest } })
    | log e => exact answers_next.2 ⟨rfl, rfl⟩
    | reannounce => exact answers_next.2 ⟨rfl, rfl⟩

theorem labelStep_addressesKept (s : State) : Answers (AddressesKept s) (labelStep s) := by
  unfold labelStep
  cases s.pc.point with
  | boot => exact answers_next.2 ⟨rfl, rfl⟩
  | resolve => exact answers_next.2 ⟨rfl, rfl⟩
  | alloc => exact answers_next.2 ⟨rfl, rfl⟩
  | announce => exact announceStart_addressesKept s
  | receive => exact receiveStart_addressesKept s
  | dispatch => exact dispatchStep_addressesKept s
  | act => exact actStep_addressesKept s

/-- The receiver's and the transmitter's records are as before, so a receive or a send is in flight as before. -/
def RecordsKept (s t : State) : Prop := t.rx = s.rx ∧ t.tx = s.tx

theorem RecordsKept.receiveInFlight (h : RecordsKept s t) : t.receiveInFlight = s.receiveInFlight := by
  obtain ⟨hrx, -⟩ := h
  simp only [State.receiveInFlight, hrx]

theorem RecordsKept.sendInFlight (h : RecordsKept s t) : t.sendInFlight = s.sendInFlight := by
  obtain ⟨-, htx⟩ := h
  simp only [State.sendInFlight, htx]

theorem recordsKept_afterAlloc (s : State) : RecordsKept s (afterAlloc s) := by
  unfold afterAlloc
  split <;> exact ⟨rfl, rfl⟩

theorem recordsKept_allocResult (acked : Bool) (s : State) : RecordsKept s (allocResult acked s) := by
  unfold allocResult
  split
  · split
    · exact ⟨rfl, rfl⟩
    · exact recordsKept_afterAlloc _
  · exact recordsKept_afterAlloc _

theorem recordsKept_afterAnnounce (s : State) : RecordsKept s (afterAnnounce s) := by
  unfold afterAnnounce
  split <;> exact ⟨rfl, rfl⟩

theorem recordsKept_sendResult (why : SendFor) (acked : Bool) (s : State) :
    RecordsKept s (sendResult why acked s) := by
  cases why with
  | poll => exact recordsKept_allocResult acked s
  | announce => exact recordsKept_afterAnnounce s
  | reply => exact ⟨rfl, rfl⟩

theorem recordsKept_afterResolve (s : State) : RecordsKept s (afterResolve s) := by
  unfold afterResolve
  split <;> exact ⟨rfl, rfl⟩

theorem recordsKept_resolve (s : State) : RecordsKept s (afterResolve (resolveEnd s)) := by
  obtain ⟨pa, log, hend⟩ := resolveEnd_eq s
  rw [hend]
  exact recordsKept_afterResolve _

/-- PC writes an address only where it takes the result of a resolve or of a send, and there it starts no operation on
the bus (R470, R515). -/
theorem pcStep_addressesKept_or_recordsKept (s : State) :
    Answers (fun t => AddressesKept s t ∨ RecordsKept s t) (pcStep s) := by
  have blocked : Answers (fun t => AddressesKept s t ∨ RecordsKept s t) (.next s) := answers_next.2 (.inl ⟨rfl, rfl⟩)
  unfold pcStep
  cases s.pc.op with
  | run => exact (labelStep_addressesKept s).mono fun _ => .inl
  | poll => exact (sendStart_addressesKept _ _ s).mono fun _ => .inl
  | announce => exact (announceStart_addressesKept s).mono fun _ => .inl
  | resolving => exact answers_next.2 (.inr (recordsKept_resolve s))
  | freeWait why f => exact (sendLaunch_addressesKept why f s).mono fun _ => .inl
  | sending why =>
    dsimp only
    split
    · exact answers_next.2 (.inr (recordsKept_sendResult why _ s.takeNotification))
    · exact blocked
  | receiving =>
    dsimp only
    split
    · exact answers_next.2 (.inl (receiveResult_addressesKept _ s.takeNotification))
    · exact blocked
  | keying k since => exact answers_next.2 (.inl (emitKeyEnd_addressesKept k s))

/-- No other agent's move writes an address (R61). -/
theorem takeMove_addressesKept {m : Move} (hm : m ≠ .pc) (s : State) : Answers (AddressesKept s) (takeMove m s) := by
  cases m with
  | rx => exact (rxStep_keptByRx s).mono fun _ k => addressesKept_of_pc k.pc
  | rxa => exact (rxaStep_keptByRxa s).mono fun _ k => addressesKept_of_pc k.byRx.pc
  | tx => exact (txStep_keptByTx s).mono fun _ k => addressesKept_of_pc k.pc
  | freeSample =>
    change Answers _ (freeStep s)
    unfold freeStep
    split
    · exact answers_next.2 ⟨rfl, rfl⟩
    · split <;> exact answers_next.2 ⟨rfl, rfl⟩
  | pc => exact absurd rfl hm
  | wait us => exact answers_next.2 (addressesKept_of_pc rfl)
  | env low => exact answers_next.2 (addressesKept_of_pc (keptByOutside_driveEnv s low).pc)
  | edid r => exact answers_next.2 (addressesKept_of_pc (keptByOutside_edidAnswers s r).pc)
  | host => exact answers_next.2 (addressesKept_of_pc rfl)

/-- PC goes on only while no receive and no send is in flight: while one is, the slot is empty and PC blocked on it. -/
theorem Disciplined.idle_of_pcReady (h : Disciplined s) (hready : s.pcReady = true) :
    s.receiveInFlight = false ∧ s.sendInFlight = false := by
  constructor
  · obtain hquiet | ⟨hop, hgoing, -⟩ := h.receiverQuiet_or
    · exact hquiet.notInFlight
    · simp [State.pcReady, hop, hgoing.slot] at hready
  · obtain hquiet | ⟨-, why, hop, hrun⟩ := h.transmitterQuiet_or
    · exact hquiet.notInFlight
    · simp [State.pcReady, hop, hrun.slot] at hready

/-- No receive and no send is in flight, before and after. -/
structure BetweenOperations (s t : State) : Prop where
  noReceive : s.receiveInFlight = false
  noSend : s.sendInFlight = false
  noReceiveAfter : t.receiveInFlight = false
  noSendAfter : t.sendInFlight = false

theorem pcStep_betweenOperations (h : Disciplined s) (hready : s.pcReady = true) :
    Answers (fun t => AddressesKept s t ∨ BetweenOperations s t) (pcStep s) := by
  obtain ⟨hrx, htx⟩ := h.idle_of_pcReady hready
  exact (pcStep_addressesKept_or_recordsKept s).mono fun t hkept =>
    hkept.imp_right fun k => ⟨hrx, htx, k.receiveInFlight.trans hrx, k.sendInFlight.trans htx⟩

theorem takeMove_pc_betweenOperations (h : Disciplined s) :
    Answers (fun t => AddressesKept s t ∨ BetweenOperations s t) (takeMove .pc s) := by
  cases hready : s.pcReady with
  | true => exact takeMove_pc_of_ready hready ▸ pcStep_betweenOperations h hready
  | false => exact takeMove_pc_of_blocked hready ▸ answers_next.2 (.inl ⟨rfl, rfl⟩)

/-- Drawing the next move touches neither the addresses nor the records. -/
theorem recordsKept_nextMove (s : State) : RecordsKept s s.nextMove.2 :=
  ⟨(State.nextMove_sameBus s).rx, (State.nextMove_sameBus s).tx⟩

theorem agentStep_betweenOperations (h : Disciplined s) :
    Answers (fun t => AddressesKept s t ∨ s.nextMove.1 = .pc ∧ BetweenOperations s t) (agentStep s) := by
  have hpc := State.nextMove_pc s
  by_cases hm : s.nextMove.1 = .pc
  · rw [agentStep, hm]
    refine (takeMove_pc_betweenOperations h.nextMove).mono fun t hkept => ?_
    obtain k | k := hkept
    · exact .inl (k.of_pc hpc)
    · exact .inr ⟨rfl, (recordsKept_nextMove s).receiveInFlight ▸ k.noReceive,
        (recordsKept_nextMove s).sendInFlight ▸ k.noSend, k.noReceiveAfter, k.noSendAfter⟩
  · exact (takeMove_addressesKept hm _).mono fun t k => .inl (k.of_pc hpc)

theorem step_betweenOperations (h : Disciplined s) :
    Answers (fun t => AddressesKept s t ∨ (s.pcRuns = true ∨ s.nextMove.1 = .pc) ∧ BetweenOperations s t) (step s) := by
  cases hruns : s.pcRuns with
  | true =>
    rw [step_of_pcRuns h.halfDuplexKept hruns]
    exact (pcStep_betweenOperations h (State.pcReady_of_pcRuns hruns)).mono fun t hkept =>
      hkept.imp_right fun k => ⟨.inl rfl, k⟩
  | false =>
    rw [step_of_pcBlocked h.halfDuplexKept hruns]
    exact (agentStep_betweenOperations h).mono fun t hkept => hkept.imp_right fun ⟨hm, k⟩ => ⟨.inr hm, k⟩

end Sys2Proof.Machine

namespace Sys2Proof.Proofs

open Sys2Proof.Machine

/-- Settles O4: either breach is what `step` checks before anything else. -/
theorem halfDuplexBreachFaults : Obligations.HalfDuplexBreachFaults := by
  intro s htx hbreach
  exact step_of_halfDuplexBroken (State.halfDuplexBroken_iff.2 ⟨htx, hbreach⟩)

/-- Settles O59: a step that changes an address is PC taking the result of a resolve or of a poll, and PC goes on only
while nothing is in flight. -/
theorem addressesChangeBetweenOperations : Obligations.AddressesChangeBetweenOperations := by
  intro s t h hstep hchange
  obtain hkept | ⟨hpc, k⟩ := step_betweenOperations (State.disciplined_iff.1 h) t hstep
  · obtain ⟨hla, hpa⟩ := hkept
    exact (hchange.elim (· hla) (· hpa)).elim
  · exact ⟨hpc, k.noReceive, k.noSend, k.noReceiveAfter, k.noSendAfter⟩

end Sys2Proof.Proofs
end

section
/-! PROOFS. The decoder and the encoder are inverse to each other (R190 to R194, R205, R360): the header byte and its
two nibbles, the opcode byte and its message, then the frame. -/

namespace Sys2Proof

variable {b op : Byte} {h : Header} {ops f : List Byte} {i : Instr}

/-! ### The header byte (R147, R190) -/

@[simp] theorem headerOf_headerByte (h : Header) : headerOf (headerByte h) = h := by
  have hinit : (h.init ++ h.dst).extractLsb' 4 4 = h.init := BitVec.extractLsb'_append_eq_left
  have hdst : (h.init ++ h.dst).extractLsb' 0 4 = h.dst := BitVec.extractLsb'_append_eq_right
  simp [headerOf, headerByte, initiatorOf, destinationOf, hinit, hdst]

@[simp] theorem headerByte_headerOf (b : Byte) : headerByte (headerOf b) = b := by
  have hwhole : b.extractLsb' 4 4 ++ b.extractLsb' 0 4 = b.extractLsb' 0 8 :=
    BitVec.extractLsb'_append_extractLsb'_eq_extractLsb' rfl
  simpa [headerOf, headerByte, initiatorOf, destinationOf] using hwhole

/-! ### The opcode byte (R205, R210) -/

@[simp] theorem header_messageOf (op : Byte) (h : Header) (ops : List Byte) : (messageOf op h ops).header = h := by
  unfold messageOf
  split <;> rfl

@[simp] theorem operands_messageOf (op : Byte) (h : Header) (ops : List Byte) :
    (messageOf op h ops).operands = ops := by
  unfold messageOf
  split <;> rfl

@[simp] theorem opcode_messageOf (op : Byte) (h : Header) (ops : List Byte) :
    (messageOf op h ops).opcode = some op := by
  unfold messageOf
  split
  case h_32 => rfl
  all_goals exact congrArg some (BitVec.toNat_eq_nat.1 ‹op.toNat = _›).2.symm

/-- An opcode byte without a name selects the default row (R404). -/
theorem messageOf_of_notMem (hop : op ∉ namedOpcodes) : messageOf op h ops = .unnamedOpcode op h ops := by
  unfold messageOf
  split
  case h_32 => rfl
  all_goals exact absurd (by rw [(BitVec.toNat_eq_nat.1 ‹op.toNat = _›).2]; decide) hop

/-- The default row is selected by no opcode byte that has a name. -/
@[simp] theorem opcodeIsFree_messageOf (op : Byte) (h : Header) (ops : List Byte) :
    (messageOf op h ops).opcodeIsFree = true := by
  by_cases hop : op ∈ namedOpcodes
  · have hnamed : namedOpcodes.all (fun op => (messageOf op h ops).opcodeIsFree) = true := rfl
    exact List.all_eq_true.1 hnamed op hop
  · simp [messageOf_of_notMem hop, Instr.opcodeIsFree, hop]

/-- Selecting by an instruction's own opcode byte gives the instruction back. -/
theorem messageOf_opcode (hfree : i.opcodeIsFree = true) (hop : i.opcode = some op) :
    messageOf op i.header i.operands = i := by
  cases i with
  | poll h => cases hop
  | unnamedOpcode op' h ops =>
    cases hop
    exact messageOf_of_notMem (by simpa [Instr.opcodeIsFree] using hfree)
  | _ => cases hop; rfl

/-- Only a Poll has no opcode byte (R194). -/
theorem eq_poll_of_opcode_eq_none (hop : i.opcode = none) : i = .poll i.header := by
  cases i with
  | poll h => rfl
  | _ => cases hop

/-! ### The frame (R190 to R194, R360) -/

theorem Instr.wellFormed_iff : i.wellFormed = true ↔ i.operands.length ≤ 14 ∧ i.opcodeIsFree = true := by
  simp [Instr.wellFormed, Instr.operandsFit]

theorem encode_poll (h : Header) : encode (.poll h) = [headerByte h] := rfl

theorem encode_of_opcode (hop : i.opcode = some op) : encode i = headerByte i.header :: op :: i.operands := by
  simp [encode, hop]

theorem encode_messageOf (op : Byte) (h : Header) (ops : List Byte) :
    encode (messageOf op h ops) = headerByte h :: op :: ops := by
  simp [encode_of_opcode (opcode_messageOf op h ops)]

theorem decode_singleton (b : Byte) : decode [b] = .message (.poll (headerOf b)) := rfl

theorem decode_of_operandsFit (hops : ops.length ≤ 14) :
    decode (b :: op :: ops) = .message (messageOf op (headerOf b) ops) := if_pos hops

theorem decode_of_operandsTooLong (hops : ¬ ops.length ≤ 14) : decode (b :: op :: ops) = .rejected .frameTooLong :=
  if_neg hops

theorem decode_encode (hwf : i.wellFormed = true) : decode (encode i) = .message i := by
  obtain ⟨hfit, hfree⟩ := Instr.wellFormed_iff.1 hwf
  cases hop : i.opcode with
  | none => rw [eq_poll_of_opcode_eq_none hop, encode_poll, decode_singleton, headerOf_headerByte]
  | some op => rw [encode_of_opcode hop, decode_of_operandsFit hfit, headerOf_headerByte, messageOf_opcode hfree hop]

theorem wellFormed_and_encode_of_decode (hdec : decode f = .message i) : i.wellFormed = true ∧ encode i = f := by
  match f with
  | [] => cases hdec
  | [b] =>
    cases hdec
    exact ⟨rfl, by rw [encode_poll, headerByte_headerOf]⟩
  | b :: op :: ops =>
    by_cases hops : ops.length ≤ 14
    · cases (decode_of_operandsFit hops).symm.trans hdec
      exact ⟨Instr.wellFormed_iff.2 (by simpa using hops), by rw [encode_messageOf, headerByte_headerOf]⟩
    · cases (decode_of_operandsTooLong hops).symm.trans hdec

theorem decode_of_length_gt (hlen : 16 < f.length) : decode f = .rejected .frameTooLong := by
  match f with
  | [] | [_] => simp at hlen
  | b :: op :: ops =>
    simp only [List.length_cons] at hlen
    exact decode_of_operandsTooLong (by omega)

end Sys2Proof

namespace Sys2Proof.Proofs

open Sys2Proof.Machine

/-- Settles O7: the header byte's nibbles are the header again, and the opcode byte selects the instruction it came
from, since a well-formed default row holds no named opcode byte. -/
theorem decodeOfEncode : Obligations.DecodeOfEncode := fun _ => decode_encode

/-- Settles O8: the frame's length decides whether there is a reading, and what is read carries the frame's own
header, opcode and operand bytes. -/
theorem decodeIsTotalOnFrames : Obligations.DecodeIsTotalOnFrames :=
  ⟨rfl, fun _ => decode_of_length, fun _ => decode_of_length_gt, fun _ _ => wellFormed_and_encode_of_decode⟩

/-- Settles O9: seven closed frames, each read by evaluating the decoder. -/
theorem wordsDecodeAsTheTableSays : Obligations.WordsDecodeAsTheTableSays := by
  unfold Obligations.WordsDecodeAsTheTableSays
  decide

end Sys2Proof.Proofs
end

section
/-! PROOFS. One edge at the receiver (R240 to R264): the rule that each phase has for its edge, what the handler makes of
that rule's answer between its entry and its exit (R242), and the window each rule holds its interval against. -/

namespace Sys2Proof.Machine

variable {s m t : State} {p : Polarity} {t₀ : Time} {P Q : State → Prop} {r r' : Result}

/-! ### The rule for a phase and a polarity (R240) -/

theorem rxTransition_awaitStart_rising (h : s.rx.phase = .awaitStart) : rxTransition .rising s = .next s := by
  simp [rxTransition, h]

theorem rxTransition_awaitStart_falling (h : s.rx.phase = .awaitStart) :
    rxTransition .falling s = rxAwaitStartFalling s := by simp [rxTransition, h]

theorem rxTransition_startLow_rising (h : s.rx.phase = .startLow) :
    rxTransition .rising s = rxStartLowRising s := by simp [rxTransition, h]

theorem rxTransition_startHigh_falling (h : s.rx.phase = .startHigh) :
    rxTransition .falling s = rxStartHighFalling s := by simp [rxTransition, h]

theorem rxTransition_dataLow_rising (h : s.rx.phase = .dataLow) :
    rxTransition .rising s = rxDataLowRising s := by simp [rxTransition, h]

theorem rxTransition_dataHigh_falling (h : s.rx.phase = .dataHigh) :
    rxTransition .falling s = rxDataHighFalling s := by simp [rxTransition, h]

theorem rxTransition_eomLow_rising (h : s.rx.phase = .eomLow) :
    rxTransition .rising s = rxEomLowRising s := by simp [rxTransition, h]

theorem rxTransition_eomHigh_falling (h : s.rx.phase = .eomHigh) :
    rxTransition .falling s = rxEomHighFalling s := by simp [rxTransition, h]

theorem rxTransition_ackLow_rising (h : s.rx.phase = .ackLow) :
    rxTransition .rising s = rxAckLowRising s := by simp [rxTransition, h]

theorem rxTransition_ackHigh_falling (h : s.rx.phase = .ackHigh) :
    rxTransition .falling s = rxAckHighFalling s := by simp [rxTransition, h]

/-- A falling edge while the line is taken to be low (R243). -/
theorem rxTransition_falling_in_low
    (h : s.rx.phase = .startLow ∨ s.rx.phase = .dataLow ∨ s.rx.phase = .eomLow ∨ s.rx.phase = .ackLow) :
    rxTransition .falling s = rxWrongPolarity s := by
  obtain h | h | h | h := h <;> simp [rxTransition, h]

/-- A rising edge while the line is taken to be high (R243). -/
theorem rxTransition_rising_in_high
    (h : s.rx.phase = .startHigh ∨ s.rx.phase = .dataHigh ∨ s.rx.phase = .eomHigh ∨ s.rx.phase = .ackHigh) :
    rxTransition .rising s = rxWrongPolarity s := by
  obtain h | h | h | h := h <;> simp [rxTransition, h]

/-! ### From the handler's entry to its exit (R241, R242) -/

theorem rxStep_eq (hedge : s.edgeIs p = true) (hrule : rxTransition p (rxEntry s) = r) :
    rxStep s = andThen r fun m => .next (rxExit m) := by
  rw [rxStep_of_edgeIs hedge, rxHandle, hrule]

/-- A rule that measures `d` has it from the clock at the handler's entry. -/
theorem rxStep_eq_of_interval {k : Time → Result} (hedge : s.edgeIs p = true) (htref : s.rx.tref = some t₀)
    (hrule : rxTransition p (rxEntry s) = withInterval (rxEntry s) k) :
    rxStep s = andThen (k (s.clock - t₀)) fun m => .next (rxExit m) := by
  have hk : withInterval (rxEntry s) k = k (s.clock - t₀) := withInterval_some htref
  exact rxStep_eq hedge (hrule.trans hk)

/-- What the handler leaves when its rule wrote `rx` and the receive goes on (R242). -/
theorem rxExit_of_rx {rx : Rx} (h : State.receiveInFlight { s with rx := rx } = true) :
    (andThen (.next { rxEntry s with rx := rx }) fun m => .next (rxExit m)) = .next (s.receiving rx) :=
  congrArg Host.Outcome.next (rxExit_of_inFlight (s := { rxEntry s with rx := rx }) h)

/-- What it leaves when the rule begins the ACK drive as well: with edges disarmed the drive makes no edge (R257,
R258). -/
theorem rxExit_of_ackStart {rx : Rx} (h : State.receiveInFlight { s with rx := rx } = true) :
    (andThen (.next (ackStart { rxEntry s with rx := rx })) fun m => .next (rxExit m)) =
      .next { s.receiving { rx with ackActive := true } with
        rxDrive := true, rxaTimer := some ⟨s.clock + 1500#64, s.clock⟩ } := by
  rw [ackStart_of_disarmed rfl]
  exact congrArg Host.Outcome.next (rxExit_of_inFlight h)

/-- What it leaves when the rule completed a frame: the result is in the slot, and edges stay disarmed (R242, R260). -/
theorem rxExit_of_frame {rx : Rx} {n : Fin 17} {received : List (List Byte)} (hslot : s.notifySlot = none)
    (hphase : rx.phase = .done) :
    (andThen (notify (.rxDone n) { rxEntry s with rx := rx, framesReceived := received }) fun m =>
        .next (rxExit m)) =
      .next { s with
        edgePending := none, edgeArmed := false, rx := rx, notifySlot := some (.rxDone n)
        framesReceived := received } :=
  andThen_eq_next.2
    ⟨_, notify_eq_next.2 ⟨hslot, rfl⟩, congrArg Host.Outcome.next (rxExit_of_ended (.inl hphase))⟩

/-! ### The branches of a rule on its measured interval (R246 to R264) -/

section
variable {k : State → Result}

/-- A rule that branches on a condition, and what it leaves told by the same condition. -/
theorem andThen_ite {c c' : Prop} [Decidable c] [Decidable c'] (hc : c ↔ c') (hpos : andThen r k = .next s)
    (hneg : andThen r' k = .next t) : andThen (if c then r else r') k = .next (if c' then s else t) := by
  simp only [hc]
  split <;> assumption

/-- As `andThen_ite`, where what the rule leaves is told by a property in each branch. -/
theorem yields_andThen_ite {c c' : Prop} [Decidable c] [Decidable c'] (hc : c ↔ c') (hpos : Yields P (andThen r k))
    (hneg : ¬ c → Yields Q (andThen r' k)) :
    Yields (fun t => if c' then P t else Q t) (andThen (if c then r else r') k) := by
  by_cases h : c
  · simpa only [if_pos h, if_pos (hc.1 h)] using hpos
  · simpa only [if_neg h, if_neg (mt hc.2 h)] using hneg h

end

/-- A result that depends on the bit value of a low time, told by the two windows (R249). -/
theorem eq_next_of_classify {d : Time} {one zero neither : State} (h₁ : classify d = some true → r = .next one)
    (h₀ : classify d = some false → r = .next zero) (h : classify d = none → r = .next neither) :
    r = .next (if 400 ≤ d.toNat ∧ d.toNat ≤ 800 then one
      else if 1300 ≤ d.toNat ∧ d.toNat ≤ 1700 then zero else neither) := by
  split
  · next hone => exact h₁ (classify_one.2 hone)
  · next hone =>
    split
    · next hzero => exact h₀ (classify_zero.2 hzero)
    · next hzero => exact h (classify_none.2 ⟨hone, hzero⟩)

theorem shiftIn_false (b : Byte) : shiftIn b false = b <<< 1 := by simp [shiftIn]

/-- `ack_wanted` on the header byte's low nibble (R252). -/
theorem ackWanted_iff {header : Byte} {target : LogicalAddr} :
    ackWanted header target = true ↔ header.extractLsb' 0 4 = target ∨ header.extractLsb' 0 4 = 0xF#4 := by
  simp [ackWanted, destinationOf, Config.broadcast]

end Sys2Proof.Machine

namespace Sys2Proof.Proofs

open Sys2Proof.Machine

/-- Settles O22: AwaitStart measures nothing; the other two edges are one window each around `rx` or an abort. -/
theorem startBitEdges : Obligations.StartBitEdges := by
  refine fun s => ⟨fun hphase => ⟨fun hedge => ?_, fun hedge => ?_⟩, fun t₀ htref hslot =>
    ⟨fun hphase hedge => ?_, fun hphase hedge => ?_⟩⟩
  · rw [rxStep_eq hedge (rxTransition_awaitStart_rising hphase)]
    exact rxExit_of_rx (by simp [State.receiveInFlight, hphase])
  · rw [rxStep_eq hedge (rxTransition_awaitStart_falling hphase)]
    exact rxExit_of_rx rfl
  · rw [rxStep_eq_of_interval hedge htref (rxTransition_startLow_rising hphase)]
    exact andThen_ite inW_iff (rxExit_of_rx rfl) (rxExit_raiseAbort hslot)
  · rw [rxStep_eq_of_interval hedge htref (rxTransition_startHigh_falling hphase)]
    exact andThen_ite inW_iff (rxExit_of_rx rfl) (rxExit_raiseAbort hslot)

/-- Settles O23: the low time splits by `classify`, the period by its window and then by whether bit 0 was read. -/
theorem dataBitEdges : Obligations.DataBitEdges := by
  refine fun s t₀ htref hslot => ⟨fun hphase hedge => ?_, fun hphase hedge => ?_⟩
  · rw [rxStep_eq_of_interval hedge htref (rxTransition_dataLow_rising hphase)]
    refine eq_next_of_classify (fun h => ?_) (fun h => ?_) (fun h => ?_) <;> rw [h]
    · exact rxExit_of_rx rfl
    · simp only [shiftIn_false]
      exact rxExit_of_rx rfl
    · exact rxExit_raiseAbort hslot
  · rw [rxStep_eq_of_interval hedge htref (rxTransition_dataHigh_falling hphase)]
    refine yields_andThen_ite inW_iff (yields_andThen_ite Fin.val_eq_zero_iff.symm ?_ fun hbit => ?_) fun _ => ?_
    · exact ⟨_, rxExit_of_rx rfl, rfl⟩
    · exact ⟨_, rxExit_of_rx rfl, _, Fin.val_sub_one_of_ne_zero hbit, rfl⟩
    · exact ⟨_, rxExit_raiseAbort hslot, rfl⟩

/-- Settles O24: the low time splits by `classify`; within the period the ACK drive starts exactly where `ack_wanted`
holds, and makes no edge because the handler has edges disarmed. -/
theorem eomBitEdgesAndAckDrive : Obligations.EomBitEdgesAndAckDrive := by
  refine fun s t₀ htref hslot => ⟨fun hphase hedge => ?_, fun hphase hedge target htarget => ?_⟩
  · rw [rxStep_eq_of_interval hedge htref (rxTransition_eomLow_rising hphase)]
    refine eq_next_of_classify (fun h => ?_) (fun h => ?_) (fun h => ?_) <;> rw [h]
    · exact rxExit_of_rx rfl
    · exact rxExit_of_rx rfl
    · exact rxExit_raiseAbort hslot
  · rw [rxStep_eq_of_interval hedge htref (rxTransition_eomHigh_falling hphase)]
    refine andThen_ite inW_iff ?_ (rxExit_raiseAbort hslot)
    simp only [rxEntry_rx, htarget, ackWanted_iff]
    split
    · exact rxExit_of_ackStart rfl
    · exact rxExit_of_rx rfl

/-- Settles O25: the low time lies in one of two windows and the EOM bit then decides; the period is held against its
window before the byte index is. -/
theorem ackBitEdges : Obligations.AckBitEdges := by
  refine fun s t₀ htref hslot => ⟨fun hphase hedge => ?_, fun hphase hedge => ?_⟩
  · rw [rxStep_eq_of_interval hedge htref (rxTransition_ackLow_rising hphase)]
    refine yields_andThen_ite (Bool.or_eq_true_iff.trans (or_congr inW_iff inW_iff))
      (yields_andThen_ite Iff.rfl ?_ fun _ => ?_) fun _ => ?_
    · exact ⟨_, rxExit_of_frame hslot rfl, lengthThrough s.rx.byte, rfl, rfl⟩
    · exact ⟨_, rxExit_of_rx rfl, rfl⟩
    · exact ⟨_, rxExit_raiseAbort hslot, rfl⟩
  · rw [rxStep_eq_of_interval hedge htref (rxTransition_ackHigh_falling hphase)]
    refine andThen_ite inW_iff (andThen_ite Iff.rfl ?_ ?_) ?_
    · exact rxExit_raiseAbort hslot
    · exact rxExit_of_rx rfl
    · exact rxExit_raiseAbort hslot

/-- Settles O26: the four low phases with a falling edge and the four high phases with a rising one have one rule, which
measures nothing. -/
theorem wrongPolarityAborts : Obligations.WrongPolarityAborts := by
  refine fun s hslot => ⟨fun hphase hedge => ?_, fun hphase hedge => ?_⟩
  · rw [rxStep_eq hedge (rxTransition_falling_in_low hphase)]
    exact rxExit_raiseAbort hslot
  · rw [rxStep_eq hedge (rxTransition_rising_in_high hphase)]
    exact rxExit_raiseAbort hslot

end Sys2Proof.Proofs
end

section
/-! PROOFS. All that a transition rule of the receiver can leave (R240 to R264), from which the handler's exit follows for
every edge (R242); and the step of the ACK release (R262). -/

namespace Sys2Proof.Machine

variable {s m t : State}

/-! ### What a transition rule leaves -/

/-- Everything the one rule for an edge can leave: nothing changed; `rx` written and the receive going on, with or
without the ACK drive; a whole frame; or an abort with one of the receiver's causes. -/
inductive RuleLeaves (s : State) : State → Prop
  | nothing : RuleLeaves s s
  | goesOn (rx : Rx) (h : State.receiveInFlight { s with rx := rx } = true) : RuleLeaves s { s with rx := rx }
  | drivesAck (rx : Rx) (h : State.receiveInFlight { s with rx := rx } = true) :
      RuleLeaves s (ackStart { s with rx := rx })
  | completes (rx : Rx) (n : Fin 17) (received : List (List Byte)) (h : rx.phase = .done ∧ rx.len = some n) :
      RuleLeaves s { s with rx := rx, framesReceived := received, notifySlot := some (.rxDone n) }
  | aborts {t : State} {c : Cause} {d : Option Time} (hc : 1 ≤ c.code.toNat ∧ c.code.toNat ≤ 10)
      (h : raiseAbort c d s = .next t) : RuleLeaves s t

theorem raiseAbort_leaves {c : Cause} (hc : 1 ≤ c.code.toNat ∧ c.code.toNat ≤ 10) (d : Option Time) (s : State) :
    Answers (RuleLeaves s) (raiseAbort c d s) := fun _ h => .aborts hc h

theorem rxStartLowRising_leaves (s : State) : Answers (RuleLeaves s) (rxStartLowRising s) :=
  answers_withInterval fun d => by
    split
    · exact answers_next.2 (.goesOn _ rfl)
    · exact raiseAbort_leaves (by decide) _ s

theorem rxStartHighFalling_leaves (s : State) : Answers (RuleLeaves s) (rxStartHighFalling s) :=
  answers_withInterval fun d => by
    split
    · exact answers_next.2 (.goesOn _ rfl)
    · exact raiseAbort_leaves (by decide) _ s

theorem rxDataLowRising_leaves (s : State) : Answers (RuleLeaves s) (rxDataLowRising s) :=
  answers_withInterval fun d => by
    split
    · exact raiseAbort_leaves (by decide) _ s
    · exact answers_next.2 (.goesOn _ rfl)

theorem rxDataHighFalling_leaves (s : State) : Answers (RuleLeaves s) (rxDataHighFalling s) :=
  answers_withInterval fun d => by
    split
    · split <;> exact answers_next.2 (.goesOn _ rfl)
    · exact raiseAbort_leaves (by decide) _ s

theorem rxEomLowRising_leaves (s : State) : Answers (RuleLeaves s) (rxEomLowRising s) :=
  answers_withInterval fun d => by
    split
    · exact raiseAbort_leaves (by decide) _ s
    · exact answers_next.2 (.goesOn _ rfl)

theorem rxEomHighFalling_leaves (s : State) : Answers (RuleLeaves s) (rxEomHighFalling s) :=
  answers_withInterval fun d => by
    split
    · split
      · exact answers_fault _
      · refine answers_next.2 ?_
        split
        · exact .drivesAck _ rfl
        · exact .goesOn _ rfl
    · exact raiseAbort_leaves (by decide) _ s

theorem rxAckLowRising_leaves (s : State) : Answers (RuleLeaves s) (rxAckLowRising s) :=
  answers_withInterval fun d => by
    split
    · split
      · exact answers_notify (.completes _ _ _ ⟨rfl, rfl⟩)
      · exact answers_next.2 (.goesOn _ rfl)
    · exact raiseAbort_leaves (by decide) _ s

theorem rxAckHighFalling_leaves (s : State) : Answers (RuleLeaves s) (rxAckHighFalling s) :=
  answers_withInterval fun d => by
    split
    · split
      · exact raiseAbort_leaves (by decide) _ s
      · exact answers_next.2 (.goesOn _ rfl)
    · exact raiseAbort_leaves (by decide) _ s

theorem rxTransition_leaves (p : Polarity) (s : State) : Answers (RuleLeaves s) (rxTransition p s) := by
  have nothing : Answers (RuleLeaves s) (.next s) := answers_next.2 .nothing
  have wrong : Answers (RuleLeaves s) (rxWrongPolarity s) := raiseAbort_leaves (by decide) _ s
  unfold rxTransition
  cases s.rx.phase with
  | idle => exact nothing
  | awaitStart => cases p; exacts [answers_next.2 (.goesOn _ rfl), nothing]
  | startLow => cases p; exacts [wrong, rxStartLowRising_leaves s]
  | startHigh => cases p; exacts [rxStartHighFalling_leaves s, wrong]
  | dataLow => cases p; exacts [wrong, rxDataLowRising_leaves s]
  | dataHigh => cases p; exacts [rxDataHighFalling_leaves s, wrong]
  | eomLow => cases p; exacts [wrong, rxEomLowRising_leaves s]
  | eomHigh => cases p; exacts [rxEomHighFalling_leaves s, wrong]
  | ackLow => cases p; exacts [wrong, rxAckLowRising_leaves s]
  | ackHigh => cases p; exacts [rxAckHighFalling_leaves s, wrong]
  | done => exact nothing
  | abort => exact nothing

/-- While edges are disarmed no rule arms them, and none makes an edge, the ACK drive included (R566). -/
theorem RuleLeaves.edges (h : RuleLeaves s t) (harmed : s.edgeArmed = false) :
    t.edgeArmed = false ∧ t.edgePending = s.edgePending := by
  cases h with
  | nothing => exact ⟨harmed, rfl⟩
  | goesOn => exact ⟨harmed, rfl⟩
  | drivesAck rx =>
    rw [ackStart_of_disarmed (s := { s with rx := rx }) harmed]
    exact ⟨harmed, rfl⟩
  | completes => exact ⟨harmed, rfl⟩
  | aborts _ h =>
    obtain ⟨-, rfl⟩ := raiseAbort_eq_next.1 h
    exact ⟨harmed, rfl⟩

/-! ### The handler's exit (R242) -/

@[simp] theorem rxExit_rx (m : State) : (rxExit m).rx = m.rx := by unfold rxExit; split <;> rfl

@[simp] theorem rxExit_edgePending (m : State) : (rxExit m).edgePending = m.edgePending := by
  unfold rxExit; split <;> rfl

theorem rxExit_edgeArmed_iff (h : m.edgeArmed = false) :
    (rxExit m).edgeArmed = true ↔ m.rx.phase ≠ .done ∧ m.rx.phase ≠ .abort := by
  unfold rxExit
  split
  · next hdone => simp [h, hdone]
  · next habort => simp [h, habort]
  · next hdone habort => exact iff_of_true rfl ⟨hdone, habort⟩

theorem rxStep_of_edgePending {e : Edge} (h : s.edgePending = some e) : rxStep s = rxHandle e.polarity s := by
  simp [rxStep, h]

/-! ### The ACK release (R262) -/

/-- A line that goes high is a rising edge, pending where one can be (R101, R566). -/
theorem lineChange_rising {old new : State} (hlow : old.line = false) (hhigh : new.line = true)
    (harmed : new.edgeArmed = true) (hnone : new.edgePending = none) :
    (lineChange old new).edgePending = some ⟨.rising, new.clock⟩ := by
  rw [lineChange_edgePending_of_ne (by simp [hlow, hhigh])]
  simp [harmed, hnone, hhigh]

theorem rxaStep_of_fires (h : s.fires s.rxaTimer = true) : rxaStep s = .next (rxaRelease s) := by simp [rxaStep, h]

/-- Whether the release makes an edge depends on the line with and without the receiver's drive (R100, R101). -/
theorem rxaRelease_edgePending (s : State) :
    (rxaRelease s).edgePending = (lineChange s { s with rxaTimer := none, rxDrive := false }).edgePending := rfl

/-- Where the receiver alone holds the line, its release is the line's rising edge. -/
theorem rxaRelease_rising (hdrive : s.rxDrive = true) (htx : s.txDrive = false) (henv : s.envLow = false)
    (harmed : s.edgeArmed = true) (hnone : s.edgePending = none) :
    (rxaRelease s).edgePending = some ⟨.rising, s.clock⟩ :=
  lineChange_rising (by simp [State.line, hdrive]) (by simp [State.line, htx, henv]) harmed hnone

/-- Where another device holds the line, its release leaves the line low. -/
theorem rxaRelease_edgePending_of_envLow (henv : s.envLow = true) : (rxaRelease s).edgePending = s.edgePending := by
  rw [rxaRelease_edgePending, lineChange, if_pos (by simp [State.line, henv])]

end Sys2Proof.Machine

namespace Sys2Proof.Proofs

open Sys2Proof.Machine

/-- Settles O28: at the entry the edge is taken and edges are disarmed, no rule changes either, and the exit looks at
the phase. -/
theorem handlerArmsUnlessEnded : Obligations.HandlerArmsUnlessEnded := by
  intro s t hpending ht
  obtain ⟨e, he⟩ := Option.isSome_iff_exists.1 hpending
  rw [rxStep_of_edgePending he] at ht
  obtain ⟨m, hm, hexit⟩ := andThen_eq_next.1 ht
  obtain rfl := next_inj.1 hexit
  obtain ⟨harmed, htaken⟩ := (rxTransition_leaves e.polarity (rxEntry s) m hm).edges rfl
  rw [rxExit_edgePending, rxExit_rx]
  exact ⟨htaken, rxExit_edgeArmed_iff harmed⟩

/-- Settles O29: the release itself, and the two cases of who else holds the line. -/
theorem ackReleaseStep : Obligations.AckReleaseStep := fun s hfires =>
  ⟨rxaRelease s, rxaStep_of_fires hfires, by simp [rxaRelease], by simp [rxaRelease], by simp [rxaRelease],
    rxaRelease_rising, rxaRelease_edgePending_of_envLow⟩

end Sys2Proof.Proofs
end

section
/-! PROOFS. One callback of the transmitter (R303 to R315): what the callback of each phase answers, and what its step
leaves when the timer fires; and one bus-free sample (R301). -/

namespace Sys2Proof.Machine

variable {s : State} {a : Alarm} {n : Fin 17} {tx : Tx} {delay : Nat} {low : Bool}

/-! ### The delays a bit value decides (R305) -/

theorem micros_lowTime (b : Bool) : micros (lowTime b) = if b then 600#64 else 1500#64 := by cases b <;> rfl

theorem micros_txBitPeriod_sub_lowTime (b : Bool) :
    micros (Config.txBitPeriod - lowTime b) = if b then 1800#64 else 900#64 := by cases b <;> rfl

theorem Tx.lastByte_iff : tx.lastByte n = true ↔ tx.byte.toNat + 1 = n.val := by simp [Tx.lastByte]

/-! ### The callback of each phase (R303 to R314) -/

theorem txCallback_startLow (h : s.tx.phase = .startLow) :
    txCallback a s = txReturn a 3700
      { s.driveTx true with tx := { s.tx with t0 := some s.clock, phase := .startHigh } } := by
  simp [txCallback, h, txStartLowCallback, Config.txStartLow]

theorem txCallback_startHigh (h : s.tx.phase = .startHigh) :
    txCallback a s = txReturn a 800 { s.driveTx false with tx := { s.tx with phase := .dataLow } } := by
  simp [txCallback, h, txStartHighCallback, Config.txStartPeriod, Config.txStartLow]

theorem txCallback_dataLow (h : s.tx.phase = .dataLow) :
    txCallback a s = txReturn a (lowTime s.tx.txbit)
      { s.driveTx true with tx := { s.tx with phase := .dataHigh } } := by
  simp [txCallback, h, txDataLowCallback]

/-- `tx` after the DataHigh callback: on to the next bit, or after bit 0 to the EOM bit (R307). -/
def Tx.afterDataBit (tx : Tx) : Tx :=
  if tx.bit = 0 then { tx with phase := .eomLow } else { tx with bit := tx.bit - 1, phase := .dataLow }

theorem txCallback_dataHigh (h : s.tx.phase = .dataHigh) :
    txCallback a s = txReturn a (Config.txBitPeriod - lowTime s.tx.txbit)
      { s.driveTx false with tx := s.tx.afterDataBit } := by
  simp only [txCallback, h, txDataHighCallback, Tx.afterDataBit, State.driveTx_tx]
  split <;> rfl

theorem txCallback_eomLow (h : s.tx.phase = .eomLow) (hlen : s.tx.len = some n) :
    txCallback a s = txReturn a (lowTime (s.tx.lastByte n))
      { s.driveTx true with tx := { s.tx with phase := .eomHigh } } := by
  simp [txCallback, h, txEomLowCallback, withTxLen_some hlen]

theorem txCallback_eomHigh (h : s.tx.phase = .eomHigh) (hlen : s.tx.len = some n) :
    txCallback a s = txReturn a (Config.txBitPeriod - lowTime (s.tx.lastByte n))
      { s.driveTx false with tx := { s.tx with phase := .ackLow } } := by
  simp [txCallback, h, txEomHighCallback, withTxLen_some hlen]

theorem txCallback_ackLow (h : s.tx.phase = .ackLow) :
    txCallback a s = txReturn a 600 { s.driveTx true with tx := { s.tx with phase := .ackHigh } } := by
  simp [txCallback, h, txAckLowCallback, Config.txAckLow]

theorem txCallback_ackHigh (h : s.tx.phase = .ackHigh) :
    txCallback a s = txReturn a 450 { s.driveTx false with tx := { s.tx with phase := .ackWait } } := by
  simp [txCallback, h, txAckHighCallback, Config.txAckSample, Config.txAckLow]

/-- `tx` after the ACK sample of a byte: on to Done after the last byte, or to the next byte (R312). -/
def Tx.afterAckSample (tx : Tx) (n : Fin 17) (lineHigh : Bool) : Tx :=
  if tx.byte.toNat + 1 = n.val then { tx with ack := tx.ack && !lineHigh, phase := .done }
  else { tx with ack := tx.ack && !lineHigh, byte := tx.byte + 1, bit := 7, phase := .dataLow }

theorem txCallback_ackWait (h : s.tx.phase = .ackWait) (hlen : s.tx.len = some n) :
    txCallback a s = txReturn a 1350 { s with tx := s.tx.afterAckSample n s.line } := by
  simp only [txCallback, h, txAckWaitCallback, withTxLen_some hlen, Tx.afterAckSample, Tx.lastByte_iff]
  split <;> rfl

theorem txCallback_done (h : s.tx.phase = .done) (hslot : s.notifySlot = none) :
    txCallback a s = .next { s with
      tx := { s.tx with phase := .idle }, notifySlot := some (.txDone s.tx.ack)
      framesSent := s.framesSent ++ [⟨s.sendingBytes, s.tx.ack⟩] } := by
  simp only [txCallback, h]
  exact notify_eq_next.2 ⟨hslot, rfl⟩

/-! ### What every callback but Done's has in common (R313, R315) -/

/-- A driver set to the value it has changes nothing. -/
theorem State.driveTx_txDrive_self (s : State) : s.driveTx s.txDrive = s := by simp [State.driveTx, lineChange]

/-- With a send in flight, every callback but Done's sets the transmitter's driver, goes to another phase of the send
and returns a delay. -/
theorem exists_txCallback_eq_txReturn (a : Alarm) (hidle : s.tx.phase ≠ .idle) (hdone : s.tx.phase ≠ .done)
    (hlen : s.tx.len = some n) :
    ∃ delay low tx, txCallback a s = txReturn a delay { s.driveTx low with tx := tx } ∧ tx.phase ≠ .idle := by
  cases hphase : s.tx.phase with
  | idle => exact absurd hphase hidle
  | startLow => exact ⟨_, _, _, txCallback_startLow hphase, by simp⟩
  | startHigh => exact ⟨_, _, _, txCallback_startHigh hphase, by simp⟩
  | dataLow => exact ⟨_, _, _, txCallback_dataLow hphase, by simp⟩
  | dataHigh => exact ⟨_, _, _, txCallback_dataHigh hphase, by unfold Tx.afterDataBit; split <;> simp⟩
  | eomLow => exact ⟨_, _, _, txCallback_eomLow hphase hlen, by simp⟩
  | eomHigh => exact ⟨_, _, _, txCallback_eomHigh hphase hlen, by simp⟩
  | ackLow => exact ⟨_, _, _, txCallback_ackLow hphase, by simp⟩
  | ackHigh => exact ⟨_, _, _, txCallback_ackHigh hphase, by simp⟩
  | ackWait =>
    refine ⟨1350, s.txDrive, s.tx.afterAckSample n s.line, ?_, by unfold Tx.afterAckSample; split <;> simp⟩
    rw [State.driveTx_txDrive_self, txCallback_ackWait hphase hlen]
  | done => exact absurd hphase hdone

/-! ### From the timer to the state the callback leaves (R103, R313) -/

/-- The timer that fires is armed. -/
theorem State.exists_txTimer_of_fires (h : s.fires s.txTimer = true) : ∃ a, s.txTimer = some a :=
  Option.ne_none_iff_exists'.1 fun hnone => by simp [hnone] at h

theorem txStep_of_txReturn {m : State} (ha : s.txTimer = some a) (hfires : s.fires s.txTimer = true)
    (h : txCallback a { s with txTimer := none } = txReturn a delay m) :
    txStep s = .next { m with txTimer := some ⟨a.due + micros delay, m.clock⟩ } :=
  (txStep_of_fires ha hfires).trans h

/-- A callback that drives the line while edges are disarmed makes no edge: the driver, the timer and `tx` are all that
differs (R566). -/
theorem txStep_of_drive (ha : s.txTimer = some a) (hfires : s.fires s.txTimer = true) (harmed : s.edgeArmed = false)
    (h : txCallback a { s with txTimer := none } =
      txReturn a delay { State.driveTx { s with txTimer := none } low with tx := tx }) :
    txStep s = .next { s with
      txDrive := low, txTimer := some ⟨a.due + micros delay, s.clock⟩, tx := tx } := by
  rw [State.driveTx_of_disarmed (s := { s with txTimer := none }) harmed] at h
  exact txStep_of_txReturn ha hfires h

/-! ### The bus-free sample (R301) -/

/-- Below seven the count never saturates. -/
theorem nextFreeCount_val {c : Fin 8} (h : c.val < 7) (high : Bool) :
    (nextFreeCount c high).val = if high then c.val + 1 else 0 := by
  cases high with
  | false => rfl
  | true => simp [nextFreeCount, show c.val + 1 < 8 by omega]

theorem freeStep_of_fires (ha : s.freeTimer = some a) (h : s.fires s.freeTimer = true) :
    freeStep s = .next (freeSample a s) := by
  simp only [freeStep, ha] at *
  simp [h]

end Sys2Proof.Machine

namespace Sys2Proof.Proofs

open Sys2Proof.Machine

/-- Settles O31: each callback sets the driver and returns its constant delay. -/
theorem startBitCallbacks : Obligations.StartBitCallbacks := fun _ _ ha hfires harmed =>
  ⟨fun hphase => txStep_of_drive ha hfires harmed (txCallback_startLow hphase),
    fun hphase => txStep_of_drive ha hfires harmed (txCallback_startHigh hphase)⟩

/-- Settles O32: both delays are told by the bit, which the second callback reads before it moves `tx.bit`. -/
theorem dataBitCallbacks : Obligations.DataBitCallbacks := by
  refine fun s a ha hfires harmed => ⟨fun hphase => ?_, fun hphase => ⟨s.tx.afterDataBit, ?_, ?_⟩⟩
  · rw [txStep_of_drive ha hfires harmed (txCallback_dataLow hphase), micros_lowTime]
    rfl
  · rw [txStep_of_drive ha hfires harmed (txCallback_dataHigh hphase), micros_txBitPeriod_sub_lowTime]
    rfl
  · simp only [Tx.afterDataBit, ← Fin.val_eq_zero_iff]
    split
    · rfl
    · next hbit => exact ⟨_, Fin.val_sub_one_of_ne_zero (mt Fin.val_eq_zero_iff.2 hbit), rfl⟩

/-- Settles O33: both delays are told by whether the byte is the last. -/
theorem eomBitCallbacks : Obligations.EomBitCallbacks := by
  refine fun s a n ha hfires harmed hlen => ⟨fun hphase => ?_, fun hphase => ?_⟩
  · rw [txStep_of_drive ha hfires harmed (txCallback_eomLow hphase hlen), micros_lowTime]
    simp only [Tx.lastByte_iff]
  · rw [txStep_of_drive ha hfires harmed (txCallback_eomHigh hphase hlen), micros_txBitPeriod_sub_lowTime]
    simp only [Tx.lastByte_iff]

/-- Settles O34: two drives with constant delays, and the sample, which leaves the line as it is. -/
theorem ackSlotCallbacks : Obligations.AckSlotCallbacks := fun _ _ _ ha hfires harmed hlen =>
  ⟨fun hphase => txStep_of_drive ha hfires harmed (txCallback_ackLow hphase),
    fun hphase => txStep_of_drive ha hfires harmed (txCallback_ackHigh hphase),
    fun hphase => txStep_of_txReturn ha hfires (txCallback_ackWait hphase hlen)⟩

/-- Settles O35: the notification finds the slot empty, and the frame entered is `sendingBytes`. -/
theorem doneCallbackNotifies : Obligations.DoneCallbackNotifies := by
  intro s harmed hfires hphase hslot
  obtain ⟨a, ha⟩ := Option.isSome_iff_exists.1 harmed
  refine ⟨s.sendingBytes, ?_, fun n hlen => by simp [State.sendingBytes, hlen]⟩
  rw [txStep_of_fires ha hfires]
  exact txCallback_done hphase hslot

/-- Settles O36: Done's callback is the only one that returns no delay and the only one that writes the slot. -/
theorem transmitterNeverAborts : Obligations.TransmitterNeverAborts := by
  intro s hfires hidle hlen hslot
  obtain ⟨a, ha⟩ := State.exists_txTimer_of_fires hfires
  obtain ⟨n, hn⟩ := Option.isSome_iff_exists.1 hlen
  by_cases hdone : s.tx.phase = .done
  · have hstep := (txStep_of_fires ha hfires).trans (txCallback_done hdone hslot)
    exact ⟨_, hstep, absurd hdone, fun _ => ⟨rfl, rfl, rfl⟩⟩
  · obtain ⟨delay, low, tx, hcallback, hphase⟩ :=
      exists_txCallback_eq_txReturn (s := { s with txTimer := none }) a hidle hdone hn
    refine ⟨_, txStep_of_txReturn ha hfires hcallback, fun _ => ⟨?_, rfl, hphase⟩, fun h => absurd h hdone⟩
    simpa using hslot

/-- Settles O38: below seven the new count is the old one and one more, or 0. -/
theorem busFreeSample : Obligations.BusFreeSample := fun s _ ha hfires hcount =>
  ⟨nextFreeCount s.pc.freeCount s.line, nextFreeCount_val hcount s.line, freeStep_of_fires ha hfires⟩

end Sys2Proof.Proofs
end

section
/-! PROOFS. The trace of a send (R316): what a send keeps from callback to callback, the line actions of each bit slot,
and from these the bytes and the frame, which are put together as `idealSchedule` is. -/

namespace Sys2Proof.Machine

variable {s t : State} {P Q : State → Prop} {base : Time} {f : List Byte} {o k j : Nat} {p : TxPhase}

/-! ### Line actions one after another -/

/-- The state in which the callback due at `now` runs when it runs at its due time: its timer has fired. -/
def State.calledAt (s : State) (now : Time) : State := { s with txTimer := none, clock := now }

/-- The transmitter's next callbacks from `s`, each run at its due time, make the actions, at `base` plus their offsets,
and leave a state with the property. -/
def Traces (base : Time) (acts : List (Nat × LineAction)) (P : State → Prop) (s : State) : Prop :=
  ∃ t, P t ∧ ∀ fuel, txTrace (fuel + acts.length) s = (acts.map fun x => (base + micros x.1, x.2)) ++ txTrace fuel t

theorem traces_nil (h : P s) : Traces base [] P s := ⟨s, h, fun _ => rfl⟩

theorem Traces.append {xs ys : List (Nat × LineAction)} (h : Traces base xs P s)
    (hk : ∀ t, P t → Traces base ys Q t) : Traces base (xs ++ ys) Q s := by
  obtain ⟨m, hm, hxs⟩ := h
  obtain ⟨t, ht, hys⟩ := hk m hm
  refine ⟨t, ht, fun fuel => ?_⟩
  rw [List.length_append, Nat.add_comm xs.length, ← Nat.add_assoc, hxs, hys, List.map_append, List.append_assoc]

theorem Traces.mono {xs : List (Nat × LineAction)} (h : Traces base xs P s) (hPQ : ∀ t, P t → Q t) :
    Traces base xs Q s := by
  obtain ⟨t, ht, hxs⟩ := h
  exact ⟨t, hPQ t ht, hxs⟩

/-- One callback, run at its due time, is one action. -/
theorem traces_callback {r : Time} {act : LineAction} (htimer : s.txTimer = some ⟨base + micros o, r⟩)
    (hcallback : txCallback ⟨base + micros o, r⟩ (s.calledAt (base + micros o)) = .next t)
    (hact : lineActionOf s t = act) (ht : P t) : Traces base [(o, act)] P s := by
  refine ⟨t, ht, fun fuel => ?_⟩
  rw [State.calledAt] at hcallback
  simp [txTrace, htimer, hcallback, hact]

/-- A callback that finds the line released and leaves it so has sampled, or ended the send. -/
theorem lineActionOf_of_released (hs : s.txDrive = false) (ht : t.txDrive = false) :
    lineActionOf s t = if t.tx.phase = .idle then .fin else .smp := by simp [lineActionOf, hs, ht]

/-- A property `P i` that each part of a schedule carries on to `P (i + 1)`. -/
theorem traces_flatMap_range {g : Nat → List (Nat × LineAction)} {P : Nat → State → Prop} (m : Nat)
    (hpart : ∀ i < m, ∀ s, P i s → Traces base (g i) (P (i + 1)) s) (h : P 0 s) :
    Traces base ((List.range m).flatMap g) (P m) s := by
  induction m with
  | zero => exact traces_nil h
  | succ m ih =>
    rw [List.range_succ, List.flatMap_append, List.flatMap_singleton]
    exact (ih fun i hi => hpart i (by omega)).append (hpart m (by omega))

/-! ### A send between two callbacks -/

/-- `tx` while bit `j` of byte `k` of `f` is sent, with the frame in its buffer. -/
structure SendingBit (f : List Byte) (p : TxPhase) (k j : Nat) (tx : Tx) : Prop where
  phase : tx.phase = p
  frame : ∀ i < f.length, tx.frame.get i = f.getD i 0#8
  len : ∃ n, tx.len = some n ∧ n.val = f.length
  byte : tx.byte.toNat = k
  bit : tx.bit.val = j

/-- A send of `f` with the callback of phase `p` due next, at offset `o` from `base`. -/
structure SendAt (f : List Byte) (base : Time) (o : Nat) (p : TxPhase) (k j : Nat) (s : State) : Prop where
  timer : ∃ r, s.txTimer = some ⟨base + micros o, r⟩
  sending : SendingBit f p k j s.tx
  drive : s.txDrive = p.drivesLow
  slot : s.notifySlot = none

theorem SendAt.phase_calledAt (h : SendAt f base o p k j s) (now : Time) : (s.calledAt now).tx.phase = p :=
  h.sending.phase

theorem micros_add (base : Time) (o delay : Nat) : base + micros o + micros delay = base + micros (o + delay) := by
  simp only [micros, BitVec.ofNat_add, BitVec.add_assoc]

/-- A callback that changes the transmitter's driver is a LOW or a REL, and the next callback is due its delay later. -/
theorem SendAt.drives {low : Bool} {delay o' k' j' : Nat} {p' : TxPhase} {tx : Tx} (h : SendAt f base o p k j s)
    (hcallback : ∀ r, txCallback ⟨base + micros o, r⟩ (s.calledAt (base + micros o)) =
      txReturn ⟨base + micros o, r⟩ delay { (s.calledAt (base + micros o)).driveTx low with tx := tx })
    (hbefore : p.drivesLow = !low) (hafter : p'.drivesLow = low) (ho : o + delay = o')
    (hsending : SendingBit f p' k' j' tx) :
    Traces base [(o, if low then .low else .rel)] (SendAt f base o' p' k' j') s := by
  obtain ⟨r, hr⟩ := h.timer
  refine traces_callback hr (hcallback r) ?_ ⟨⟨base + micros o, ?_⟩, hsending, ?_, ?_⟩
  · cases low <;> simp [lineActionOf, h.drive, hbefore]
  · simp [State.alarm, State.calledAt, micros_add, ho]
  · simp [hafter]
  · simpa [State.calledAt] using h.slot

/-! ### The start bit (R303, R304) -/

theorem SendAt.startBit (h : SendAt f base 0 .startLow k j s) :
    Traces base [(0, .low), (3700, .rel)] (SendAt f base 4500 .dataLow k j) s := by
  have hlow : Traces base [(0, .low)] (SendAt f base 3700 .startHigh k j) s :=
    h.drives (fun _ => txCallback_startLow (h.phase_calledAt _)) rfl rfl rfl { h.sending with phase := rfl }
  exact hlow.append fun _ h =>
    h.drives (fun _ => txCallback_startHigh (h.phase_calledAt _)) rfl rfl rfl { h.sending with phase := rfl }

/-! ### A data bit (R306, R307) -/

/-- A slot is 2400 µs from its falling edge, whatever its low time. -/
theorem lowTime_add_rest (o : Nat) (b : Bool) : o + lowTime b + (Config.txBitPeriod - lowTime b) = o + 2400 := by
  cases b <;> rfl

theorem SendingBit.lowTime_txbit {tx : Tx} (h : SendingBit f p k j tx) (hk : k < f.length) :
    lowTime tx.txbit = bitLow (f.getD k 0#8) j := by
  rw [Tx.txbit, Memory.read, h.byte, h.bit, h.frame k hk]
  rfl

theorem SendingBit.afterDataBit {tx : Tx} (h : SendingBit f p k j tx) :
    SendingBit f (if j = 0 then .eomLow else .dataLow) k (j - 1) tx.afterDataBit := by
  have hj : j = 0 ↔ tx.bit = 0 := by rw [← h.bit, Fin.val_eq_zero_iff]
  by_cases hzero : tx.bit = 0
  · rw [Tx.afterDataBit, if_pos hzero, if_pos (hj.2 hzero)]
    exact { h with phase := rfl, bit := by simp [hzero, hj.2 hzero] }
  · rw [Tx.afterDataBit, if_neg hzero, if_neg (mt hj.1 hzero)]
    exact { h with phase := rfl, bit := by rw [Fin.val_sub_one_of_ne_zero hzero, h.bit] }

theorem SendAt.dataBit (h : SendAt f base o .dataLow k j s) (hk : k < f.length) :
    Traces base [(o, .low), (o + bitLow (f.getD k 0#8) j, .rel)]
      (SendAt f base (o + 2400) (if j = 0 then .eomLow else .dataLow) k (j - 1)) s := by
  have hlow : Traces base [(o, .low)] (SendAt f base (o + bitLow (f.getD k 0#8) j) .dataHigh k j) s :=
    h.drives (fun _ => txCallback_dataLow (h.phase_calledAt _)) rfl rfl
      (congrArg (o + ·) (h.sending.lowTime_txbit hk)) { h.sending with phase := rfl }
  refine hlow.append fun m h =>
    h.drives (fun _ => txCallback_dataHigh (h.phase_calledAt _)) rfl ?_ ?_ h.sending.afterDataBit
  · split <;> rfl
  · rw [← h.sending.lowTime_txbit hk]
    exact lowTime_add_rest o m.tx.txbit

/-- The eight data bits of a byte: `tx.bit` is 7 less the number of the slots that are over. -/
theorem SendAt.dataBits (h : SendAt f base o .dataLow k 7 s) (hk : k < f.length) :
    Traces base
      ((List.range 8).flatMap fun i =>
        [(o + 2400 * i, .low), (o + 2400 * i + bitLow (f.getD k 0#8) (7 - i), .rel)])
      (SendAt f base (o + 19200) .eomLow k 0) s := by
  refine traces_flatMap_range
    (P := fun i => SendAt f base (o + 2400 * i) (if i = 8 then .eomLow else .dataLow) k (7 - i)) 8 ?_ h
  intro i hi m hm
  rw [if_neg (by omega)] at hm
  refine (hm.dataBit hk).mono fun t ht => ?_
  have hphase : (7 - i = 0) = (i + 1 = 8) := by simp only [eq_iff_iff]; omega
  simpa only [hphase, Nat.sub_sub, Nat.mul_succ, Nat.add_assoc] using ht

/-! ### The EOM bit (R308, R309) -/

theorem SendingBit.lowTime_lastByte {tx : Tx} (h : SendingBit f p k j tx) :
    ∃ n, tx.len = some n ∧ lowTime (tx.lastByte n) = eomLow (k + 1 == f.length) := by
  obtain ⟨n, hn, hlen⟩ := h.len
  refine ⟨n, hn, ?_⟩
  rw [Tx.lastByte, h.byte, hlen]
  rfl

theorem SendAt.eomBit {o' : Nat} (h : SendAt f base o .eomLow k j s) (ho : o + 2400 = o') :
    Traces base [(o, .low), (o + eomLow (k + 1 == f.length), .rel)] (SendAt f base o' .ackLow k j) s := by
  obtain ⟨n, hn, htime⟩ := h.sending.lowTime_lastByte
  have hlow : Traces base [(o, .low)] (SendAt f base (o + eomLow (k + 1 == f.length)) .eomHigh k j) s :=
    h.drives (fun _ => txCallback_eomLow (h.phase_calledAt _) hn) rfl rfl (congrArg (o + ·) htime)
      { h.sending with phase := rfl }
  refine hlow.append fun m h => ?_
  obtain ⟨n, hn, htime⟩ := h.sending.lowTime_lastByte
  refine h.drives (fun _ => txCallback_eomHigh (h.phase_calledAt _) hn) rfl rfl ?_ { h.sending with phase := rfl }
  rw [← htime]
  exact (lowTime_add_rest o (m.tx.lastByte n)).trans ho

/-! ### The ACK slot (R310 to R312) -/

/-- After the last byte the sample leaves the send with its Done callback, and otherwise with the next byte's bit 7. -/
theorem SendingBit.afterAckSample {tx : Tx} {n : Fin 17} (h : SendingBit f p k j tx) (hlen : n.val = f.length)
    (lineHigh : Bool) :
    (k + 1 = f.length → SendingBit f .done k j (tx.afterAckSample n lineHigh)) ∧
    (k + 1 < f.length → SendingBit f .dataLow (k + 1) 7 (tx.afterAckSample n lineHigh)) := by
  have hbyte := h.byte
  constructor
  · intro hlast
    rw [Tx.afterAckSample, if_pos (by omega)]
    exact { h with phase := rfl }
  · intro hmore
    rw [Tx.afterAckSample, if_neg (by omega)]
    exact { h with phase := rfl, byte := by bv_omega, bit := rfl }

/-- The ACK sample leaves the line as it is. -/
theorem SendAt.samples {o' k' j' : Nat} {p' : TxPhase} {n : Fin 17} (h : SendAt f base o .ackWait k j s)
    (hn : s.tx.len = some n) (hafter : p'.drivesLow = false) (hidle : p' ≠ .idle) (ho : o + 1350 = o')
    (hsending : SendingBit f p' k' j' (s.tx.afterAckSample n s.line)) :
    Traces base [(o, .smp)] (SendAt f base o' p' k' j') s := by
  obtain ⟨r, hr⟩ := h.timer
  refine traces_callback hr (txCallback_ackWait (h.phase_calledAt _) hn) ?_
    ⟨⟨base + micros o, ?_⟩, hsending, h.drive.trans hafter.symm, h.slot⟩
  · have hdrive : s.txDrive = false := h.drive
    have hphase : (s.tx.afterAckSample n s.line).phase ≠ .idle := hsending.phase.trans_ne hidle
    exact (lineActionOf_of_released hdrive (by exact hdrive)).trans (if_neg hphase)
  · rw [← ho, ← micros_add]
    rfl

/-- A send with byte `k` to come, or over when `k` is the frame's length. -/
def ByteDue (f : List Byte) (base : Time) (k : Nat) (s : State) : Prop :=
  if k < f.length then SendAt f base (4500 + 24000 * k) .dataLow k 7 s
  else SendAt f base (4500 + 24000 * k) .done (k - 1) 0 s

theorem byteDue_of_lt (hk : k < f.length) :
    ByteDue f base k s ↔ SendAt f base (4500 + 24000 * k) .dataLow k 7 s := by rw [ByteDue, if_pos hk]

theorem byteDue_of_eq (hk : k = f.length) :
    ByteDue f base k s ↔ SendAt f base (4500 + 24000 * k) .done (k - 1) 0 s := by rw [ByteDue, if_neg hk.not_lt]

theorem SendAt.ackSample (h : SendAt f base o .ackWait k 0 s) (hk : k < f.length)
    (ho : o + 1350 = 4500 + 24000 * (k + 1)) : Traces base [(o, .smp)] (ByteDue f base (k + 1)) s := by
  obtain ⟨n, hn, hlen⟩ := h.sending.len
  obtain ⟨hlast, hmore⟩ := h.sending.afterAckSample hlen s.line
  obtain heq | hlt := Nat.eq_or_lt_of_le hk
  · exact (h.samples hn rfl (by simp) ho (hlast heq)).mono fun t => (byteDue_of_eq heq).2
  · exact (h.samples hn rfl (by simp) ho (hmore hlt)).mono fun t => (byteDue_of_lt hlt).2

theorem SendAt.ackSlot (h : SendAt f base o .ackLow k 0 s) (hk : k < f.length)
    (ho : o + 2400 = 4500 + 24000 * (k + 1)) :
    Traces base [(o, .low), (o + 600, .rel), (o + 1050, .smp)] (ByteDue f base (k + 1)) s := by
  have hlow : Traces base [(o, .low)] (SendAt f base (o + 600) .ackHigh k 0) s :=
    h.drives (fun _ => txCallback_ackLow (h.phase_calledAt _)) rfl rfl rfl { h.sending with phase := rfl }
  have hhigh (m : State) (h : SendAt f base (o + 600) .ackHigh k 0 m) :
      Traces base [(o + 600, .rel)] (SendAt f base (o + 1050) .ackWait k 0) m :=
    h.drives (fun _ => txCallback_ackHigh (h.phase_calledAt _)) rfl rfl rfl { h.sending with phase := rfl }
  have hsample (m : State) (h : SendAt f base (o + 1050) .ackWait k 0 m) :
      Traces base [(o + 1050, .smp)] (ByteDue f base (k + 1)) m := h.ackSample hk ho
  exact (hlow.append hhigh).append hsample

/-! ### Bytes, frame and the end of the send (R314, R316) -/

theorem ByteDue.traces_idealByte (h : ByteDue f base k s) (hk : k < f.length) :
    Traces base (idealByte (f.getD k 0#8) (k + 1 == f.length) k) (ByteDue f base (k + 1)) s := by
  have hbits := ((byteDue_of_lt hk).1 h).dataBits hk
  have heom := hbits.append fun _ h => h.eomBit (o' := 4500 + 24000 * k + 21600) (by omega)
  exact heom.append fun _ h => h.ackSlot hk (by omega)

/-- The Done callback ends the send and arms no callback. -/
theorem SendAt.done (h : SendAt f base o .done k j s) : Traces base [(o, .fin)] (fun t => t.txTimer = none) s := by
  obtain ⟨r, hr⟩ := h.timer
  refine traces_callback hr (txCallback_done (h.phase_calledAt _) h.slot) ?_ rfl
  exact (lineActionOf_of_released h.drive (by exact h.drive)).trans (if_pos rfl)

theorem SendAt.traces_idealSchedule (h : SendAt f base 0 .startLow 0 7 s) (hf : 1 ≤ f.length) :
    Traces base (idealSchedule f) (fun t => t.txTimer = none) s := by
  have hbytes (m : State) (h : SendAt f base 4500 .dataLow 0 7 m) :=
    traces_flatMap_range (P := ByteDue f base) f.length (fun k hk _ hb => hb.traces_idealByte hk)
      ((byteDue_of_lt hf).2 h)
  exact (h.startBit.append hbytes).append fun m hm => ((byteDue_of_eq rfl).1 hm).done

@[simp] theorem length_idealByte (b : Byte) (last : Bool) (k : Nat) : (idealByte b last k).length = 21 := by
  simp [idealByte]

theorem length_idealSchedule (f : List Byte) : (idealSchedule f).length = 21 * f.length + 3 := by
  simp [idealSchedule, Nat.mul_comm]

/-- The launch writes the frame and makes the StartLow callback due at once (R380). -/
theorem sendAt_of_sendLaunch {why : SendFor} (hf : f.length ≤ 16) (hwf : s.tx.frame.wf = true)
    (hdrive : s.txDrive = false) (hslot : s.notifySlot = none) (ht : sendLaunch why f s = .next t) :
    SendAt f s.clock 0 .startLow 0 7 t := by
  rw [sendLaunch_of_length (by omega), next_inj] at ht
  subst ht
  refine ⟨⟨s.clock, rfl⟩, ⟨rfl, fun i hi => ?_, ⟨_, rfl, rfl⟩, rfl, rfl⟩, hdrive, hslot⟩
  rw [Memory.get_putBytes hwf (by omega), if_pos (by omega)]
  rfl

end Sys2Proof.Machine

namespace Sys2Proof.Proofs

open Sys2Proof.Machine

/-- Settles O37: from the launch on, the trace is put together slot by slot as the ideal schedule is. -/
theorem sendFollowsIdealSchedule : Obligations.SendFollowsIdealSchedule := by
  intro f why s t hpos hf hwf hdrive hslot ht
  obtain ⟨u, -, htrace⟩ := (sendAt_of_sendLaunch hf hwf hdrive hslot ht).traces_idealSchedule hpos
  have h := htrace 0
  rwa [Nat.zero_add, length_idealSchedule, txTrace, List.append_nil] at h

end Sys2Proof.Proofs
end

section
/-! PROOFS. A receiver over the edges of a transmitted frame (R260, R268, R375): the interval that each edge closes, one
edge in each phase, and from these the bit slots, the byte blocks and the frame, put together as `frameEvents` is. -/

namespace Sys2Proof.Machine

variable {s t : State} {P Q : State → Prop} {base : Time} {target : LogicalAddr} {f : List Byte} {rx : Rx}
  {late : Nat → Nat} {o o' k i j c : Nat}

/-! ### Events one after another -/

/-- The receiver takes the events from `s` on and is left in a state with the property. -/
def Reads (events : List RxEvent) (P : State → Prop) (s : State) : Prop := Yields P (rxRun events s)

theorem rxRun_append (xs ys : List RxEvent) (s : State) : rxRun (xs ++ ys) s = andThen (rxRun xs s) (rxRun ys) := by
  induction xs generalizing s with
  | nil => rfl
  | cons v rest ih =>
    simp only [List.cons_append, rxRun]
    cases rxEvent v s with
    | next m => exact ih m
    | fault => rfl
    | refused => rfl

theorem Reads.append {xs ys : List RxEvent} (h : Reads xs P s) (hk : ∀ m, P m → Reads ys Q m) :
    Reads (xs ++ ys) Q s := by
  rw [Reads, rxRun_append]
  exact yields_andThen h hk

theorem Reads.mono {xs : List RxEvent} (h : Reads xs P s) (hPQ : ∀ m, P m → Q m) : Reads xs Q s := Yields.mono h hPQ

/-- A property `P i` that each part of the events carries on to `P (i + 1)`. -/
theorem reads_flatMap_range {g : Nat → List RxEvent} {P : Nat → State → Prop} (m : Nat)
    (hpart : ∀ i < m, ∀ s, P i s → Reads (g i) (P (i + 1)) s) (h : P 0 s) :
    Reads ((List.range m).flatMap g) (P m) s := by
  induction m with
  | zero => exact yields_next h
  | succ m ih =>
    rw [List.range_succ, List.flatMap_append, List.flatMap_singleton]
    exact (ih fun i hi => hpart i (by omega)).append (hpart m (by omega))

/-- The state in which RX takes an edge that its handler reads at clock value `now`. -/
def State.edgeAt (s : State) (p : Polarity) (now : Time) : State :=
  { s with clock := now, edgePending := some ⟨p, now⟩ }

theorem edgeIs_edgeAt {p : Polarity} {now : Time} : (s.edgeAt p now).edgeIs p = true := by
  simp [State.edgeIs, State.edgeAt]

/-- An edge event is a step of RX, whose entry takes the pending edge (R242). -/
theorem reads_edge {p : Polarity} {now : Time} (hstep : rxStep (s.edgeAt p now) = .next t) (ht : P t) :
    Reads [.edge p now] P s := by
  have hevent : rxEvent (.edge p now) s = .next t := hstep
  rw [Reads, rxRun, hevent]
  exact yields_next ht

/-! ### The interval that an edge closes (R241, R249) -/

/-- Two clock values given as offsets from `base` are as far apart as the offsets. -/
theorem toNat_interval {d : Nat} (hd : d < 2 ^ 64) : (base + micros (o + d) - (base + micros o)).toNat = d := by
  rw [← micros_add, add_sub_cancel_left, micros, BitVec.toNat_ofNat, Nat.mod_eq_of_lt hd]

/-- The interval that the handler of an edge at offset `o'` measures from the falling edge at `o`. -/
theorem edgeAt_interval_mem {p : Polarity} {lo hi : Nat} (hlo : o + lo ≤ o') (hhi : o' ≤ o + hi)
    (hwidth : hi < 2 ^ 64) :
    lo ≤ ((s.edgeAt p (base + micros o')).clock - (base + micros o)).toNat ∧
      ((s.edgeAt p (base + micros o')).clock - (base + micros o)).toNat ≤ hi := by
  obtain ⟨d, rfl⟩ : ∃ d, o' = o + d := ⟨o' - o, by omega⟩
  rw [State.edgeAt, toNat_interval (by omega)]
  omega

/-- A low time at most 200 µs off its nominal value is read as the bit that was sent. -/
theorem classify_edgeAt_of_lowTime {p : Polarity} {b : Bool} (hlo : o + lowTime b ≤ o' + 200)
    (hhi : o' ≤ o + lowTime b + 200) :
    classify ((s.edgeAt p (base + micros o')).clock - (base + micros o)) = some b := by
  cases b with
  | true =>
    simp only [lowTime, if_true, Config.txBit1Low] at hlo hhi
    exact classify_one.2 (edgeAt_interval_mem (by omega) (by omega) (by decide))
  | false =>
    simp only [lowTime, Bool.false_eq_true, if_false, Config.txBit0Low] at hlo hhi
    exact classify_zero.2 (edgeAt_interval_mem (by omega) (by omega) (by decide))

/-! ### A receive between two edges -/

/-- A receive in phase `p` that took its last falling edge at offset `o` from `base`. -/
structure ReceiveAt (target : LogicalAddr) (base : Time) (o : Nat) (p : RxPhase) (s : State) : Prop where
  phase : s.rx.phase = p
  tref : s.rx.tref = some (base + micros o)
  target : s.rx.target = some target
  slot : s.notifySlot = none
  wf : s.rx.buf.wf = true

/-- `rx` at bit `j` of byte `k` of `f`, with the lowest `c` bits of that byte still to come. -/
structure ReadingBit (f : List Byte) (k j c : Nat) (rx : Rx) : Prop where
  byte : rx.byte.toNat = k
  bit : rx.bit.val = j
  before : ∀ i < k, rx.buf.get i = f.getD i 0#8
  current : rx.buf.get k = f.getD k 0#8 >>> c

/-- `rx` once byte `k` of `f` and its EOM bit are read. -/
structure EomRead (f : List Byte) (k : Nat) (rx : Rx) : Prop extends ReadingBit f k 0 0 rx where
  eom : rx.eom = (k + 1 == f.length)

/-- Shifting in bit `j` of a byte whose higher bits are read (R250). -/
theorem shiftIn_ushiftRight (b : Byte) (j : Nat) : shiftIn (b >>> (j + 1)) (b.getLsbD j) = b >>> j := by
  ext i hi
  cases i with
  | zero => cases h : b.getLsbD j <;> simp [Machine.shiftIn, h]
  | succ i => cases h : b.getLsbD j <;> simp [Machine.shiftIn, Nat.add_right_comm, Nat.add_assoc]

theorem ReadingBit.shiftIn (h : ReadingBit f k j (j + 1) rx) (hwf : rx.buf.wf = true) :
    ReadingBit f k j j { rx with
      buf := rx.buf.write rx.byte (shiftIn (rx.buf.read rx.byte) ((f.getD k 0#8).getLsbD j)), phase := .dataHigh } where
  byte := h.byte
  bit := h.bit
  before i hi := by
    rw [Memory.write, Memory.get_put hwf, h.byte, if_neg hi.ne, h.before i hi]
  current := by
    rw [Memory.write, Memory.get_put hwf, h.byte, if_pos rfl, Memory.read, h.byte, h.current, shiftIn_ushiftRight]

/-- `begin_byte` (R248): all eight bits of the byte are to come, and the bytes before it are kept. -/
theorem readingBit_beginByte {r : Rx} {b : BitVec 4} (hwf : r.buf.wf = true) (hb : b.toNat = k)
    (hbefore : ∀ i < k, r.buf.get i = f.getD i 0#8) : ReadingBit f k 7 8 (r.beginByte b) where
  byte := hb
  bit := rfl
  before i hi := by
    rw [Rx.beginByte, Memory.write, Memory.get_put hwf, hb, if_neg hi.ne, hbefore i hi]
  current := by
    rw [Rx.beginByte, Memory.write, Memory.get_put hwf, hb, if_pos rfl]
    exact (BitVec.ushiftRight_eq_zero le_rfl).symm

/-- The bytes read are those before byte `k` and, once it has no bit to come, byte `k`. -/
theorem ReadingBit.get_of_le (h : ReadingBit f k j 0 rx) (hi : i ≤ k) : rx.buf.get i = f.getD i 0#8 := by
  obtain hlt | rfl := Nat.lt_or_eq_of_le hi
  · exact h.before i hlt
  · simpa using h.current

/-! ### The start bit (R245 to R247) -/

theorem reads_startBit (hphase : s.rx.phase = .awaitStart) (htarget : s.rx.target = some target)
    (hslot : s.notifySlot = none) (hwf : s.rx.buf.wf = true) :
    Reads [.edge .falling (base + micros o)] (ReceiveAt target base o .startLow) s :=
  reads_edge (((Proofs.startBitEdges (s.edgeAt .falling (base + micros o))).1 hphase).2 edgeIs_edgeAt)
    ⟨rfl, rfl, htarget, hslot, hwf⟩

theorem ReceiveAt.startLow_rises (h : ReceiveAt target base o .startLow s) (hlo : o + 3500 ≤ o')
    (hhi : o' ≤ o + 3900) :
    Reads [.edge .rising (base + micros o')] (ReceiveAt target base o .startHigh) s := by
  have hstep := ((Proofs.startBitEdges (s.edgeAt .rising (base + micros o'))).2 _ h.tref h.slot).1 h.phase
    edgeIs_edgeAt
  rw [if_pos (edgeAt_interval_mem hlo hhi (by decide))] at hstep
  exact reads_edge hstep { h with phase := rfl }

theorem ReceiveAt.startHigh_falls (h : ReceiveAt target base o .startHigh s) (hlo : o + 4300 ≤ o')
    (hhi : o' ≤ o + 4700) :
    Reads [.edge .falling (base + micros o')]
      (fun t => ReceiveAt target base o' .dataLow t ∧ ReadingBit f 0 7 8 t.rx) s := by
  have hstep := ((Proofs.startBitEdges (s.edgeAt .falling (base + micros o'))).2 _ h.tref h.slot).2 h.phase
    edgeIs_edgeAt
  rw [if_pos (edgeAt_interval_mem hlo hhi (by decide))] at hstep
  have hbit : ReadingBit f 0 7 8 (s.rx.beginByte 0) := readingBit_beginByte h.wf rfl (by simp)
  exact reads_edge hstep ⟨⟨rfl, rfl, h.target, h.slot, Memory.wf_write h.wf _ _⟩, { hbit with }⟩

/-! ### A data bit (R250, R251) -/

theorem ReceiveAt.dataLow_rises (h : ReceiveAt target base o .dataLow s) (hbit : ReadingBit f k j (j + 1) s.rx)
    (hlo : o + bitLow (f.getD k 0#8) j ≤ o' + 200) (hhi : o' ≤ o + bitLow (f.getD k 0#8) j + 200) :
    Reads [.edge .rising (base + micros o')]
      (fun t => ReceiveAt target base o .dataHigh t ∧ ReadingBit f k j j t.rx) s := by
  have hstep := rxStep_eq_of_interval (s := s.edgeAt .rising (base + micros o')) edgeIs_edgeAt h.tref
    (rxTransition_dataLow_rising h.phase)
  simp only [classify_edgeAt_of_lowTime (b := (f.getD k 0#8).getLsbD j) hlo hhi] at hstep
  exact reads_edge (hstep.trans (rxExit_of_rx rfl))
    ⟨{ h with phase := rfl, wf := Memory.wf_write h.wf _ _ }, hbit.shiftIn h.wf⟩

theorem ReceiveAt.dataHigh_falls (h : ReceiveAt target base o .dataHigh s) (hbit : ReadingBit f k (j + 1) c s.rx)
    (hlo : o + 2050 ≤ o') (hhi : o' ≤ o + 2750) :
    Reads [.edge .falling (base + micros o')]
      (fun t => ReceiveAt target base o' .dataLow t ∧ ReadingBit f k j c t.rx) s := by
  obtain ⟨t, hstep, ht⟩ := (Proofs.dataBitEdges (s.edgeAt .falling (base + micros o')) _ h.tref h.slot).2 h.phase
    edgeIs_edgeAt
  have hmore : (s.edgeAt .falling (base + micros o')).rx.bit.val ≠ 0 := hbit.bit.trans_ne (by simp)
  rw [if_pos (edgeAt_interval_mem hlo hhi (by decide)), if_neg hmore] at ht
  obtain ⟨b, hb, rfl⟩ := ht
  have hj : b.val = j := hb.trans (congrArg (· - 1) hbit.bit)
  exact reads_edge hstep ⟨{ h with phase := rfl, tref := rfl }, { hbit with bit := hj }⟩

theorem ReceiveAt.dataHigh_ends (h : ReceiveAt target base o .dataHigh s) (hbit : ReadingBit f k 0 0 s.rx)
    (hlo : o + 2050 ≤ o') (hhi : o' ≤ o + 2750) :
    Reads [.edge .falling (base + micros o')]
      (fun t => ReceiveAt target base o' .eomLow t ∧ ReadingBit f k 0 0 t.rx) s := by
  obtain ⟨t, hstep, ht⟩ := (Proofs.dataBitEdges (s.edgeAt .falling (base + micros o')) _ h.tref h.slot).2 h.phase
    edgeIs_edgeAt
  have hzero : (s.edgeAt .falling (base + micros o')).rx.bit.val = 0 := hbit.bit
  rw [if_pos (edgeAt_interval_mem hlo hhi (by decide)), if_pos hzero] at ht
  subst ht
  exact reads_edge hstep ⟨{ h with phase := rfl, tref := rfl }, { hbit with }⟩

/-! ### The EOM bit (R256, R257) -/

theorem ReceiveAt.eomLow_rises (h : ReceiveAt target base o .eomLow s) (hbit : ReadingBit f k 0 0 s.rx)
    (hlo : o + eomLow (k + 1 == f.length) ≤ o' + 200) (hhi : o' ≤ o + eomLow (k + 1 == f.length) + 200) :
    Reads [.edge .rising (base + micros o')]
      (fun t => ReceiveAt target base o .eomHigh t ∧ EomRead f k t.rx) s := by
  have hstep := rxStep_eq_of_interval (s := s.edgeAt .rising (base + micros o')) edgeIs_edgeAt h.tref
    (rxTransition_eomLow_rising h.phase)
  simp only [classify_edgeAt_of_lowTime (b := k + 1 == f.length) hlo hhi] at hstep
  exact reads_edge (hstep.trans (rxExit_of_rx rfl)) ⟨{ h with phase := rfl }, { hbit with eom := rfl }⟩

/-- Whether or not the receiver acknowledges, this edge begins the ACK slot (R252, R258). -/
theorem ReceiveAt.eomHigh_falls (h : ReceiveAt target base o .eomHigh s) (heom : EomRead f k s.rx)
    (hlo : o + 2050 ≤ o') (hhi : o' ≤ o + 2750) :
    Reads [.edge .falling (base + micros o')]
      (fun t => ReceiveAt target base o' .ackLow t ∧ EomRead f k t.rx) s := by
  have hstep := (Proofs.eomBitEdgesAndAckDrive (s.edgeAt .falling (base + micros o')) _ h.tref h.slot).2 h.phase
    edgeIs_edgeAt target h.target
  rw [if_pos (edgeAt_interval_mem hlo hhi (by decide))] at hstep
  refine reads_edge hstep ?_
  split <;> exact ⟨{ h with phase := rfl, tref := rfl }, { heom with }⟩

/-! ### The ACK bit (R260, R262, R264) -/

/-- The frame is whole, and PC is notified of it. -/
def FrameRead (f : List Byte) (s : State) : Prop :=
  ∃ n, s.rx.phase = .done ∧ s.rx.len = some n ∧ n.val = f.length ∧ s.rx.buf.bytes n.val = f ∧
    s.notifySlot = some (.rxDone n)

theorem ReadingBit.bytes_eq (h : ReadingBit f k j 0 rx) (hlast : k + 1 = f.length) : rx.buf.bytes (k + 1) = f := by
  refine List.ext_getElem (by simp [Memory.bytes, hlast]) fun i hi hi' => ?_
  simp [Memory.bytes, h.get_of_le (show i ≤ k by omega), hi']

/-- The ACK bit ends the frame after its last byte, and otherwise leaves the next byte to come. -/
theorem ReceiveAt.ackLow_rises (h : ReceiveAt target base o .ackLow s) (heom : EomRead f k s.rx)
    (hlow : o + 400 ≤ o' ∧ o' ≤ o + 800 ∨ o + 1300 ≤ o' ∧ o' ≤ o + 1700) :
    Reads [.edge .rising (base + micros o')]
      (fun t => if k + 1 = f.length then FrameRead f t
        else ReceiveAt target base o .ackHigh t ∧ ReadingBit f k 0 0 t.rx) s := by
  obtain ⟨t, hstep, ht⟩ := (Proofs.ackBitEdges (s.edgeAt .rising (base + micros o')) _ h.tref h.slot).1 h.phase
    edgeIs_edgeAt
  rw [if_pos (hlow.imp (fun ⟨hlo, hhi⟩ => edgeAt_interval_mem hlo hhi (by decide))
    fun ⟨hlo, hhi⟩ => edgeAt_interval_mem hlo hhi (by decide))] at ht
  refine reads_edge hstep ?_
  by_cases hlast : k + 1 = f.length
  · have hend : (s.edgeAt .rising (base + micros o')).rx.eom = true := heom.eom.trans (by simp [hlast])
    rw [if_pos hend] at ht
    rw [if_pos hlast]
    obtain ⟨n, hn, rfl⟩ := ht
    have hlen : n.val = k + 1 := hn.trans (congrArg (· + 1) heom.byte)
    exact ⟨n, rfl, rfl, hlen.trans hlast, by rw [hlen]; exact heom.bytes_eq hlast, rfl⟩
  · have hmore : ¬ (s.edgeAt .rising (base + micros o')).rx.eom = true := by
      simp [State.edgeAt, heom.eom, hlast]
    rw [if_neg hmore] at ht
    rw [if_neg hlast, ht]
    exact ⟨{ h with phase := rfl }, { heom with }⟩

theorem ReceiveAt.ackHigh_falls (h : ReceiveAt target base o .ackHigh s) (hbit : ReadingBit f k 0 0 s.rx)
    (hk : k < 15) (hlo : o + 2050 ≤ o') (hhi : o' ≤ o + 2750) :
    Reads [.edge .falling (base + micros o')]
      (fun t => ReceiveAt target base o' .dataLow t ∧ ReadingBit f (k + 1) 7 8 t.rx) s := by
  have hstep := (Proofs.ackBitEdges (s.edgeAt .falling (base + micros o')) _ h.tref h.slot).2 h.phase
    edgeIs_edgeAt
  have hbyte := hbit.byte
  have hroom : (s.edgeAt .falling (base + micros o')).rx.byte ≠ 15#4 := fun heq => by
    have hfull : s.rx.byte.toNat = 15 := congrArg BitVec.toNat heq
    omega
  rw [if_pos (edgeAt_interval_mem hlo hhi (by decide)), if_neg hroom] at hstep
  have hnext : ReadingBit f (k + 1) 7 8 (s.rx.beginByte (s.rx.byte + 1)) :=
    readingBit_beginByte h.wf (by bv_omega) fun i hi => hbit.get_of_le (Nat.le_of_lt_succ hi)
  exact reads_edge hstep ⟨⟨rfl, rfl, h.target, h.slot, Memory.wf_write h.wf _ _⟩, { hnext with }⟩

/-- The release writes the flag of the ACK drive and nothing else of `rx` (R262). -/
theorem ReceiveAt.releases {now : Time} (h : ReceiveAt target base o .ackLow s) (heom : EomRead f k s.rx) :
    Reads [.release now] (fun t => ReceiveAt target base o .ackLow t ∧ EomRead f k t.rx) s := by
  have hrx : (rxaRelease { s with clock := now }).rx = { s.rx with ackActive := false } := by simp [rxaRelease]
  have hslot : (rxaRelease { s with clock := now }).notifySlot = s.notifySlot := by simp [rxaRelease]
  refine yields_next ⟨⟨?_, ?_, ?_, hslot.trans h.slot, ?_⟩, ?_⟩ <;> rw [hrx]
  exacts [h.phase, h.tref, h.target, h.wf, { heom with }]

/-! ### Slots, bytes and the frame (R375) -/

/-- A receive with slot `i` of byte `k` to come, data bits being slots 0 to 7 and the EOM bit slot 8: what the slot
before it left, whose falling edge was read at most 200 µs late. -/
inductive SlotComes (f : List Byte) (target : LogicalAddr) (base : Time) : Nat → Nat → State → Prop
  | afterStart {l : Nat} {s : State} (hl : l ≤ 200) (h : ReceiveAt target base l .startHigh s) :
      SlotComes f target base 0 0 s
  | afterByte {k l : Nat} {s : State} (hl : l ≤ 200)
      (h : ReceiveAt target base (4500 + 24000 * k + 21600 + l) .ackHigh s) (hbit : ReadingBit f k 0 0 s.rx) :
      SlotComes f target base (k + 1) 0 s
  | afterBit {k i l : Nat} {s : State} (hl : l ≤ 200)
      (h : ReceiveAt target base (4500 + 24000 * k + 2400 * i + l) .dataHigh s)
      (hbit : ReadingBit f k (7 - i) (7 - i) s.rx) : SlotComes f target base k (i + 1) s

/-- Whatever came before a data bit, its falling edge begins it. -/
theorem SlotComes.falls {l : Nat} (h : SlotComes f target base k i s) (hk : k < 16) (hi : i < 8) (hl : l ≤ 200) :
    Reads [.edge .falling (base + micros (4500 + 24000 * k + 2400 * i + l))]
      (fun t => ReceiveAt target base (4500 + 24000 * k + 2400 * i + l) .dataLow t ∧
        ReadingBit f k (7 - i) (7 - i + 1) t.rx) s := by
  cases h with
  | afterStart hl' h => exact h.startHigh_falls (by omega) (by omega)
  | afterByte hl' h hbit => exact h.ackHigh_falls hbit (by omega) (by omega) (by omega)
  | @afterBit _ i _ _ hl' h hbit =>
    have hj : 7 - i = 7 - (i + 1) + 1 := by omega
    rw [hj] at hbit
    exact h.dataHigh_falls hbit (by omega) (by omega)

section
variable (hlate : ∀ e, late e ≤ 200)
include hlate

theorem SlotComes.dataBit (h : SlotComes f target base k i s) (hk : k < 16) (hi : i < 8) (e : Nat) :
    Reads (slotEvents base late e (4500 + 24000 * k + 2400 * i) (bitLow (f.getD k 0#8) (7 - i)))
      (SlotComes f target base k (i + 1)) s := by
  have he := hlate e
  have he' := hlate (e + 1)
  refine (h.falls hk hi he).append fun m ⟨hm, hbit⟩ => ?_
  exact (hm.dataLow_rises hbit (by omega) (by omega)).mono fun t ⟨ht, hbit⟩ => .afterBit he ht hbit

theorem SlotComes.eomBit (h : SlotComes f target base k 8 s) (e : Nat) :
    Reads (slotEvents base late e (4500 + 24000 * k + 19200) (eomLow (k + 1 == f.length)))
      (fun t => ReceiveAt target base (4500 + 24000 * k + 19200 + late e) .eomHigh t ∧ EomRead f k t.rx) s := by
  have he := hlate e
  have he' := hlate (e + 1)
  cases h with
  | afterBit hl h hbit =>
    refine (h.dataHigh_ends hbit (by omega) (by omega)).append fun m ⟨hm, hbit⟩ => ?_
    exact hm.eomLow_rises hbit (by omega) (by omega)

/-- The rising edge of the ACK slot comes from the initiator's release or from the receiver's own. -/
theorem ReceiveAt.ackSlot (h : ReceiveAt target base o .eomHigh s) (heom : EomRead f k s.rx) (acks : Bool)
    (e start : Nat) (hlo : o + 2200 ≤ start) (hhi : start ≤ o + 2550) :
    Reads (ackSlotEvents base late acks e start)
      (fun t => if k + 1 = f.length then FrameRead f t
        else ReceiveAt target base (start + late e) .ackHigh t ∧ ReadingBit f k 0 0 t.rx) s := by
  have he := hlate e
  have he' := hlate (e + 1)
  have hfalls := h.eomHigh_falls (o' := start + late e) heom (by omega) (by omega)
  cases acks with
  | false => exact hfalls.append fun m ⟨hm, heom⟩ => hm.ackLow_rises heom (.inl ⟨by omega, by omega⟩)
  | true =>
    have hreleased := hfalls.append fun m ⟨hm, heom⟩ =>
      hm.releases (now := base + micros (start + late e + 1500)) heom
    exact hreleased.append fun m ⟨hm, heom⟩ => hm.ackLow_rises heom (.inr ⟨by omega, by omega⟩)

/-- A receive with byte `k` to come, or with the frame whole when `k` is the frame's length. -/
def ByteComes (f : List Byte) (target : LogicalAddr) (base : Time) (k : Nat) (s : State) : Prop :=
  if k < f.length then SlotComes f target base k 0 s else FrameRead f s

theorem ByteComes.reads_byteEvents (h : ByteComes f target base k s) (hk : k < f.length) (hf : f.length ≤ 16)
    (acks : Bool) :
    Reads (byteEvents base late acks (f.getD k 0#8) (k + 1 == f.length) k) (ByteComes f target base (k + 1)) s := by
  rw [ByteComes, if_pos hk] at h
  have hbits := reads_flatMap_range (P := SlotComes f target base k) 8
    (fun i hi _ hs => hs.dataBit hlate (hk.trans_le hf) hi (2 + 20 * k + 2 * i)) h
  have heom := hbits.append fun _ hs => hs.eomBit hlate (2 + 20 * k + 16)
  have hlateEom := hlate (2 + 20 * k + 16)
  refine heom.append fun _ ⟨hm, hend⟩ => ?_
  refine (hm.ackSlot hlate hend acks (2 + 20 * k + 18) _ (by omega) (by omega)).mono fun t ht => ?_
  rw [ByteComes]
  split at ht
  · next hlast => rwa [if_neg (by omega)]
  · next hmore =>
    rw [if_pos (by omega)]
    exact .afterByte (hlate _) ht.1 ht.2

theorem reads_frameEvents (hpos : 1 ≤ f.length) (hf : f.length ≤ 16) (hphase : s.rx.phase = .awaitStart)
    (htarget : s.rx.target = some target) (hslot : s.notifySlot = none) (hwf : s.rx.buf.wf = true) (acks : Bool) :
    Reads (frameEvents base late acks f) (FrameRead f) s := by
  have he := hlate 0
  have he' := hlate (0 + 1)
  have hstart : Reads (slotEvents base late 0 0 3700) (ByteComes f target base 0) s := by
    refine (reads_startBit hphase htarget hslot hwf).append fun m hm => ?_
    refine (hm.startLow_rises (by omega) (by omega)).mono fun t ht => ?_
    rw [ByteComes, if_pos (by omega)]
    exact .afterStart (by omega) ht
  refine hstart.append fun m hm => ?_
  refine (reads_flatMap_range (P := ByteComes f target base) f.length
    (fun k hk _ hb => hb.reads_byteEvents hlate hk hf acks) hm).mono fun t ht => ?_
  rwa [ByteComes, if_neg (lt_irrefl _)] at ht

end

end Sys2Proof.Machine

namespace Sys2Proof.Proofs

open Sys2Proof.Machine

/-- Settles O30: from the start bit on, the receiver is carried slot by slot and byte by byte over the events, as
`frameEvents` puts them together; each interval is at most 200 µs off its nominal value, inside its window. -/
theorem receiverReadsBackTransmittedFrame : Obligations.ReceiverReadsBackTransmittedFrame := by
  intro f late base s target hpos hf hlate hphase htarget hwf hslot
  obtain ⟨t, hrun, n, hread⟩ := reads_frameEvents (base := base) hlate hpos hf hphase htarget hslot hwf
    (ackWanted (f.getD 0 0) target)
  exact ⟨t, n, hrun, hread⟩

end Sys2Proof.Proofs
end

section
/-! PROOFS. PC at its labels and in its blocking operations (R380, R383, R510, R511): from where each step goes on, when
PC is blocked in a send or a receive, what the two operations answer where their `require` lines fail, and the reads of
`pc.LA` before the first allocation (R362). -/

namespace Sys2Proof.Machine

variable {s : State} {why : SendFor} {f ops : List Byte} {i : Instr} {k : Nat}

/-! ### From where PC goes on (R510, R511) -/

theorem pcStep_run (hop : s.pc.op = .run) : pcStep s = labelStep s := by simp [pcStep, hop]

theorem pcStep_announce (hop : s.pc.op = .announce) : pcStep s = announceStart s := by simp [pcStep, hop]

theorem pcStep_freeWait (hop : s.pc.op = .freeWait why f) : pcStep s = sendLaunch why f s := by simp [pcStep, hop]

theorem pcStep_receiving_rxDone {n : Fin 17} (hop : s.pc.op = .receiving) (hslot : s.notifySlot = some (.rxDone n)) :
    pcStep s = .next (receiveResult n s.takeNotification) := by simp [pcStep, hop, hslot]

theorem pcStep_receiving_of_no_rxDone (hop : s.pc.op = .receiving) (hslot : ∀ n, s.notifySlot ≠ some (.rxDone n)) :
    pcStep s = .next s := by
  cases hs : s.notifySlot with
  | none => simp [pcStep, hop, hs]
  | some v =>
    cases v with
    | rxDone n => exact absurd hs (hslot n)
    | txDone => simp [pcStep, hop, hs]

theorem labelStep_announce (hpoint : s.pc.point = .announce) : labelStep s = announceStart s := by
  simp [labelStep, hpoint]

theorem labelStep_receive (hpoint : s.pc.point = .receive) : labelStep s = receiveStart s := by
  simp [labelStep, hpoint]

theorem labelStep_dispatch (hpoint : s.pc.point = .dispatch) : labelStep s = dispatchStep s := by
  simp [labelStep, hpoint]

theorem receiveResult_eq (n : Fin 17) (s : State) :
    receiveResult n s = s.goto (if n.val = 0 then .receive else .dispatch) := by
  simp only [receiveResult, ← Fin.val_eq_zero_iff]
  split <;> rfl

/-! ### When PC is blocked (R510) -/

theorem State.pcReady_of_freeWait (hop : s.pc.op = .freeWait why f) : s.pcReady = true ↔ s.pc.freeCount.val = 7 := by
  simp [State.pcReady, hop, Fin.ext_iff]

theorem State.pcReady_of_sending (hop : s.pc.op = .sending why) :
    s.pcReady = true ↔ ∃ a, s.notifySlot = some (.txDone a) := by
  simp only [State.pcReady, hop]
  split
  · next a ha => exact iff_of_true rfl ⟨a, ha⟩
  · next hslot => exact iff_of_false (by simp) fun ⟨a, ha⟩ => hslot a ha

theorem State.pcReady_of_receiving (hop : s.pc.op = .receiving) :
    s.pcReady = true ↔ ∃ n, s.notifySlot = some (.rxDone n) := by
  simp only [State.pcReady, hop]
  split
  · next n hn => exact iff_of_true rfl ⟨n, hn⟩
  · next hslot => exact iff_of_false (by simp) fun ⟨n, hn⟩ => hslot n hn

/-! ### The `require` lines of a send and of a receive (R380, R383) -/

theorem sendStart_notIdle (hf : 1 ≤ f.length ∧ f.length ≤ 16)
    (hbusy : ¬ (s.tx.phase = .idle ∧ s.notifySlot = none ∧ s.edgeArmed = false ∧ s.rx.ackActive = false)) :
    sendStart why f s = .fault .sendNotIdle := by
  rw [sendStart, if_neg (by omega), if_neg hbusy]

theorem receiveStart_notIdle (hbusy : ¬ (s.tx.phase = .idle ∧ s.notifySlot = none ∧ s.rx.ackActive = false)) :
    receiveStart s = .fault .receiveNotIdle := if_neg hbusy

theorem receiveStart_la_none (hidle : s.tx.phase = .idle ∧ s.notifySlot = none ∧ s.rx.ackActive = false)
    (hla : s.pc.la = none) : receiveStart s = .fault .unwrittenRead := by
  rw [receiveStart, if_pos hidle, hla]

/-! ### Reads of `pc.LA` before the first allocation (R90, R362) -/

theorem announceStart_la_none (hla : s.pc.la = none) : announceStart s = .fault .unwrittenRead := withLa_none hla

theorem routingReply_la_none {operand : Option PhysicalAddr} (hla : s.pc.la = none)
    (hnames : namesPa operand s.pc.pa = true) : routingReply operand s = .fault .unwrittenRead := by
  rw [routingReply, if_pos hnames, withLa_none hla]

/-- A routing operand that is there and is this device's known address names it (R423, R429). -/
theorem namesPa_operandPa {pa : PhysicalAddr} (hlen : k + 2 ≤ ops.length) (hknown : pa ≠ 0x0000#16)
    (hpa : ops.getD k 0 ++ ops.getD (k + 1) 0 = pa) : namesPa (operandPa ops k) pa = true := by
  have hoperand : operandPa ops k = some pa := by
    rw [← hpa, operandPa, List.getElem?_eq_getElem (by omega), List.getElem?_eq_getElem (by omega)]
    simp [assemblePa, List.getD_eq_getElem?_getD, show k < ops.length by omega, show k + 1 < ops.length by omega]
  simp [namesPa, hoperand, Config.paUnknown, hknown]

/-! ### DISPATCH of a placed frame (R374, R511) -/

theorem step_of_dispatch {n : Fin 17} (hd : s.halfDuplexBroken = false) (hpoint : s.pc.point = .dispatch)
    (hop : s.pc.op = .run) (hlen : s.rx.len = some n) (hdec : decode (s.deliveredBytes n) = .message i) :
    step s = exec i s := by
  rw [step_of_pcRuns hd (State.pcRuns_iff.2 (.inl hop)), pcStep_run hop, labelStep_dispatch hpoint]
  simp [dispatchStep, hlen, hdec]

theorem step_withFrame (hdec : decode f = .message i) : step (s.withFrame f) = exec i (s.withFrame f) := by
  have hlen : f.length ≤ 16 := by
    by_contra hlong
    cases (decode_of_length_gt (by omega)).symm.trans hdec
  have hbytes : (s.withFrame f).deliveredBytes ⟨min f.length 16, by omega⟩ = f := by
    simp only [State.deliveredBytes, State.withFrame, min_eq_left hlen]
    exact Memory.bytes_putBytes Memory.wf_nil hlen
  refine step_of_dispatch ?_ rfl rfl rfl (hbytes.symm ▸ hdec)
  simp [State.halfDuplexBroken, State.receiveInFlight, State.withFrame]

theorem decodeTableWord_eq_some {nbits w : Nat} :
    decodeTableWord nbits w = some i ↔ decode (frameOfWord nbits w) = .message i := by
  unfold decodeTableWord
  cases decode (frameOfWord nbits w) <;> simp

end Sys2Proof.Machine

namespace Sys2Proof.Proofs

open Sys2Proof.Machine

/-- Settles O6: a placed frame stands in the buffer as if received, with PC at DISPATCH, and the receive it ends leaves
no half-duplex breach behind, whatever the transmitter is doing. -/
theorem placedWordIsRunNext : Obligations.PlacedWordIsRunNext := fun _ _ _ _ hword =>
  step_withFrame (decodeTableWord_eq_some.1 hword)

/-- Settles O18: the announcement and the seven requests read `pc.LA` first, a routing message once its operand has
named this device. -/
theorem requestsBeforeAllocationFault : Obligations.RequestsBeforeAllocationFault := by
  refine ⟨fun s hla => ⟨fun hpoint hop => ?_, fun hop => ?_⟩, fun h ops s hla => ?_⟩
  · rw [pcStep_run hop, labelStep_announce hpoint, announceStart_la_none hla]
  · rw [pcStep_announce hop, announceStart_la_none hla]
  · exact ⟨withLa_none hla, withLa_none hla, withLa_none hla, withLa_none hla, withLa_none hla, withLa_none hla,
      withLa_none hla,
      fun hlen hknown hpa => routingReply_la_none hla (namesPa_operandPa hlen hknown hpa),
      fun hlen hknown hpa => routingReply_la_none hla (namesPa_operandPa hlen hknown hpa)⟩

/-- Settles O39: the start by the frame's length and the `require` line, then the two waits, each with the condition
PC is blocked on, and between them the launch. -/
theorem sendStartsAndLaunches : Obligations.SendStartsAndLaunches := by
  refine ⟨fun why f s => ⟨fun hlen => sendStart_length (by omega), fun hpos hle => ⟨?_, fun hbusy => ?_⟩⟩,
    fun s why hop => ⟨fun hslot => ?_, fun a ha => ?_⟩,
    fun s why f hop => ⟨State.pcReady_of_freeWait hop, fun hcount => ?_, fun hcount hpos hle hwf => ?_⟩⟩
  · intro hphase hslot harmed hack
    exact sendStart_eq_next.2 ⟨⟨hpos, hle⟩, ⟨hphase, hslot, harmed, hack⟩, rfl⟩
  · refine sendStart_notIdle ⟨hpos, hle⟩ fun ⟨hphase, hslot, harmed, hack⟩ => ?_
    simp [hphase, hslot, harmed, hack] at hbusy
  · have hblocked := Bool.eq_false_iff.2 (mt (State.pcReady_of_sending hop).1 (not_exists.2 hslot))
    exact ⟨hblocked, takeMove_pc_of_blocked hblocked⟩
  · have hready := (State.pcReady_of_sending hop).2 ⟨a, ha⟩
    exact ⟨hready, takeMove_pc_of_ready hready⟩
  · exact takeMove_pc_of_blocked (Bool.eq_false_iff.2 (mt (State.pcReady_of_freeWait hop).1 hcount.ne))
  · have hlaunch := sendLaunch_of_length (s := s) (why := why) (Nat.lt_succ_of_le hle)
    rw [takeMove_pc_of_ready ((State.pcReady_of_freeWait hop).2 hcount), pcStep_freeWait hop, hlaunch]
    refine ⟨_, ⟨f.length, by omega⟩, rfl, rfl, rfl, Memory.bytes_putBytes hwf hle, rfl, rfl, rfl, rfl, rfl, ?_, rfl,
      rfl, fun i hi => ?_⟩
    · simp [State.alarm, micros]
    · rw [Memory.get_putBytes hwf (by omega), if_neg (by omega)]

/-- Settles O40: the `require` line, then the read of `pc.LA`, then the receive-start column. -/
theorem receiveStartResets : Obligations.ReceiveStartResets := by
  intro s hpoint hop
  rw [pcStep_run hop, labelStep_receive hpoint]
  refine ⟨fun hbusy => receiveStart_notIdle fun ⟨hphase, hslot, hack⟩ => ?_, fun hphase hslot hack =>
    ⟨receiveStart_la_none ⟨hphase, hslot, hack⟩, fun la hla => ?_⟩⟩
  · simp [hphase, hslot, hack] at hbusy
  · exact ⟨_, receiveStart_eq_next.2 ⟨⟨hphase, hslot, hack⟩, la, hla, rfl⟩, rfl, rfl, rfl, rfl, rfl, rfl,
      fun _ => rfl, rfl, rfl, rfl, rfl, rfl, rfl⟩

/-- Settles O41: the slot decides whether PC is blocked, and the result where it goes. -/
theorem receiveReturns : Obligations.ReceiveReturns := by
  refine fun s hop => ⟨State.pcReady_of_receiving hop, fun n hn => ⟨?_, ?_⟩, fun hslot => ?_⟩
  · exact takeMove_pc_of_ready ((State.pcReady_of_receiving hop).2 ⟨n, hn⟩)
  · rw [pcStep_receiving_rxDone hop hn, receiveResult_eq]
    rfl
  · have hno (n : Fin 17) : s.notifySlot ≠ some (.rxDone n) := by
      obtain hnone | ⟨a, ha⟩ := hslot <;> simp [*]
    have hblocked := Bool.eq_false_iff.2 (mt (State.pcReady_of_receiving hop).1 (not_exists.2 hno))
    exact ⟨takeMove_pc_of_blocked hblocked, pcStep_receiving_of_no_rxDone hop hno⟩

end Sys2Proof.Proofs
end

section
/-! PROOFS. An idle bus (R384, R665): in a quiescent state no agent's step is enabled, so that what any move but ENV
pulling the line low can change is read by no condition of R665. -/

namespace Sys2Proof.Machine

variable {s : State}

/-- The conditions of R665 on the state by name. -/
structure Quiescent (s : State) : Prop where
  point : s.pc.point = .receive
  op : s.pc.op = .receiving
  phase : s.rx.phase = .awaitStart
  armed : s.edgeArmed = true
  txIdle : s.tx.phase = .idle
  txTimer : s.txTimer = none
  rxaTimer : s.rxaTimer = none
  freeTimer : s.freeTimer = none
  slot : s.notifySlot = none
  line : s.line = true

theorem State.quiescent_iff : s.quiescent = true ↔ Quiescent s := by
  simp only [State.quiescent, Bool.and_eq_true, beq_iff_eq, Option.isNone_iff_eq_none]
  constructor
  · rintro ⟨⟨⟨⟨⟨⟨⟨⟨⟨point, op⟩, phase⟩, armed⟩, txIdle⟩, txTimer⟩, rxaTimer⟩, freeTimer⟩, slot⟩, line⟩
    exact ⟨point, op, phase, armed, txIdle, txTimer, rxaTimer, freeTimer, slot, line⟩
  · rintro ⟨point, op, phase, armed, txIdle, txTimer, rxaTimer, freeTimer, slot, line⟩
    exact ⟨⟨⟨⟨⟨⟨⟨⟨⟨point, op⟩, phase⟩, armed⟩, txIdle⟩, txTimer⟩, rxaTimer⟩, freeTimer⟩, slot⟩, line⟩

/-- ENV that releases a line that is high has nothing to release. -/
theorem driveEnv_false_of_line (h : s.line = true) : s.driveEnv false = s := by
  obtain ⟨-, -, henv⟩ := State.line_iff.1 h
  have hsame : { s with envLow := false } = s := by rw [← henv]
  rw [State.driveEnv, hsame, lineChange, if_pos rfl]

/-- Nothing differs but the clock, the EDID answer and the key channel. -/
def ChannelsChanged (s t : State) : Prop :=
  ∃ clock edidRsp keyq, t = { s with clock := clock, edidRsp := edidRsp, keyq := keyq }

/-- No agent's step is enabled, and of the outside's acts only pulling the line low reaches the bus (R384). -/
theorem Quiescent.takeMove_channelsChanged {m : Move} (h : Quiescent s) (hedge : s.edgePending = none)
    (hm : m ≠ .env true) : Yields (ChannelsChanged s) (takeMove m s) := by
  have stays (hmove : takeMove m s = .next s) : Yields (ChannelsChanged s) (takeMove m s) :=
    ⟨s, hmove, s.clock, s.edidRsp, s.keyq, rfl⟩
  cases m with
  | rx => exact stays (by simp [takeMove, rxStep, hedge])
  | rxa => exact stays (rxaStep_of_not_fires (by simp [h.rxaTimer]))
  | tx => exact stays (txStep_of_not_fires (by simp [h.txTimer]))
  | freeSample => exact stays (freeStep_of_not_fires (by simp [h.freeTimer]))
  | pc =>
    exact stays (takeMove_pc_of_blocked
      (Bool.eq_false_iff.2 (mt (State.pcReady_of_receiving h.op).1 (by simp [h.slot]))))
  | wait us => exact yields_next ⟨_, s.edidRsp, s.keyq, rfl⟩
  | env low =>
    cases low with
    | false => exact stays (congrArg _ (driveEnv_false_of_line h.line))
    | true => exact absurd rfl hm
  | edid r =>
    refine ⟨_, rfl, ?_⟩
    rw [State.edidAnswers_eq]
    split
    · exact ⟨s.clock, _, s.keyq, rfl⟩
    · exact ⟨s.clock, s.edidRsp, s.keyq, rfl⟩
  | host => exact yields_next ⟨s.clock, s.edidRsp, _, rfl⟩

end Sys2Proof.Machine

namespace Sys2Proof.Proofs

open Sys2Proof.Machine

/-- Settles O42: what any other move can change, no condition of R665 reads. -/
theorem idleBusKeepsWaiting : Obligations.IdleBusKeepsWaiting := by
  intro s m hquiet hedge hm
  obtain ⟨t, hmove, clock, edidRsp, keyq, rfl⟩ := (State.quiescent_iff.1 hquiet).takeMove_channelsChanged hedge hm
  exact ⟨_, hmove, hquiet, hedge, rfl, rfl, rfl⟩

end Sys2Proof.Proofs
end

section
/-! PROOFS. The dispatcher (R400 to R450): what each shape of handler hands to ACT, what an action list can be, on what
it depends, and that it is the table of R450. -/

namespace Sys2Proof.Machine

variable {s s₁ s₂ : State} {b op : Byte} {ops : List Byte} {la : LogicalAddr} {pa : PhysicalAddr}
  {as : List Action} {h : Header} {k : Nat}

/-! ### The handlers by shape (R402 to R407) -/

theorem logUnrecognized_eq (op : Byte) (ops : List Byte) (s : State) :
    logUnrecognized op ops s = react [.log (.unrecognized op (ops.length + 2))] s := rfl

theorem pressReaction_cons (u : Byte) (rest : List Byte) :
    pressReaction (u :: rest) = match Config.keymap u with | some k => .key k | none => .log (.keyUnmapped u) := rfl

/-- A unicast request is answered exactly when its destination is `pc.LA` (R402). -/
theorem replyIfUnicast_eq (build : LogicalAddr → LogicalAddr → List Byte) (h : Header) (hla : s.pc.la = some la) :
    replyIfUnicast build h s = react (if h.dst = la then [.send (build la h.init)] else []) s := by
  simp [replyIfUnicast_some hla, unicast]

theorem rootCue_iff : rootCue h = true ↔ h = ⟨0x0, 0xF⟩ := by
  cases h
  simp [rootCue, Config.root, Config.broadcast]

/-- The root cue makes the block announce itself again (R403). -/
theorem reannounceOnCue_eq (h : Header) (s : State) :
    reannounceOnCue h s = react (if h = ⟨0x0, 0xF⟩ then [.reannounce] else []) s := by
  simp only [reannounceOnCue, rootCue_iff]

theorem operandPa_of_length (hlen : k + 2 ≤ ops.length) :
    operandPa ops k = some (ops.getD k 0 ++ ops.getD (k + 1) 0) := by
  simp [operandPa, assemblePa, show k < ops.length by omega, show k + 1 < ops.length by omega]

theorem operandPa_of_short (hlen : ¬ k + 2 ≤ ops.length) : operandPa ops k = none := by
  simp [operandPa, show ops[k + 1]? = none by simp; omega]

/-- The three conditions of a routing message (R423, R429). -/
theorem namesPa_operandPa_iff :
    namesPa (operandPa ops k) pa = true ↔
      k + 2 ≤ ops.length ∧ pa ≠ 0x0000#16 ∧ ops.getD k 0 ++ ops.getD (k + 1) 0 = pa := by
  by_cases hlen : k + 2 ≤ ops.length
  · simp [namesPa, operandPa_of_length hlen, hlen, Config.paUnknown]
  · simp [namesPa, operandPa_of_short hlen, hlen]

/-- A routing message whose operand names this device is answered with Image View On and Active Source (R371, R372). -/
theorem routingReply_operandPa (ops : List Byte) (k : Nat) (hla : s.pc.la = some la) :
    routingReply (operandPa ops k) s =
      react (if k + 2 ≤ ops.length ∧ s.pc.pa ≠ 0x0000#16 ∧ ops.getD k 0 ++ ops.getD (k + 1) 0 = s.pc.pa then
        [.send (frameImageViewOn la), .send (frameActiveSource la s.pc.pa)] else []) s := by
  simp only [routingReply_some hla, namesPa_operandPa_iff]

/-! ### What an action list can be (R446) -/

/-- The action lists a dispatch can hand to ACT. -/
inductive ReactionShape : List Action → Prop
  | silent : ReactionShape []
  | single (a : Action) : ReactionShape [a]
  | sends (f g : List Byte) : ReactionShape [.send f, .send g]

theorem ReactionShape.reannounce_alone (h : ReactionShape as) (hmem : .reannounce ∈ as) : as = [.reannounce] := by
  cases h with
  | silent => simp at hmem
  | single a => rw [List.mem_singleton.1 hmem]
  | sends f g => simp at hmem

theorem reactionShape_ite {c : Prop} [Decidable c] (a : Action) : ReactionShape (if c then [a] else []) := by
  split
  · exact .single a
  · exact .silent

/-- The action list this result leaves, if it leaves one, has one of the shapes. -/
def ReactionShaped : Result → Prop := Answers fun t => ReactionShape t.pc.actions

theorem reactionShaped_react (h : ReactionShape as) : ReactionShaped (react as s) := answers_next.2 h

theorem reactionShaped_replyIfUnicast (build : LogicalAddr → LogicalAddr → List Byte) (h : Header) (s : State) :
    ReactionShaped (replyIfUnicast build h s) :=
  answers_withLa fun _ => reactionShaped_react (reactionShape_ite _)

theorem reactionShaped_routingReply (operand : Option PhysicalAddr) (s : State) :
    ReactionShaped (routingReply operand s) := by
  unfold routingReply
  split
  · exact answers_withLa fun _ => reactionShaped_react (.sends _ _)
  · exact reactionShaped_react .silent

theorem exec_reactionShaped (i : Instr) (s : State) : ReactionShaped (exec i s) := by
  cases i with
  | poll h => exact reactionShaped_react .silent
  | giveOsdName h ops => exact reactionShaped_replyIfUnicast _ h s
  | giveAudioStatus h ops => exact reactionShaped_replyIfUnicast _ h s
  | giveSystemAudioModeStatus h ops => exact reactionShaped_replyIfUnicast _ h s
  | givePhysicalAddress h ops =>
    exact reactionShaped_replyIfUnicast (fun la _ => frameReportPhysicalAddress la s.pc.pa) h s
  | giveDeviceVendorId h ops => exact reactionShaped_replyIfUnicast (fun la _ => frameDeviceVendorId la) h s
  | giveDevicePowerStatus h ops => exact reactionShaped_replyIfUnicast _ h s
  | getCecVersion h ops => exact reactionShaped_replyIfUnicast _ h s
  | routingChange h ops => exact reactionShaped_routingReply _ s
  | setStreamPath h ops => exact reactionShaped_routingReply _ s
  | reportPhysicalAddress h ops => exact reactionShaped_react (reactionShape_ite _)
  | deviceVendorId h ops => exact reactionShaped_react (reactionShape_ite _)
  | _ => exact reactionShaped_react (.single _)

/-- An instruction's next state: a list is handed to ACT, and nothing else has changed (R400). -/
theorem exec_eq_next {i : Instr} {t : State} (h : exec i s = .next t) :
    ∃ as, exec i s = react as s ∧ t = { s with pc := { s.pc with actions := as, point := .act } } := by
  obtain ⟨as, has⟩ | ⟨-, hfault⟩ := exec_react i s
  · exact ⟨as, has, next_inj.1 (h.symm.trans has)⟩
  · simp [hfault] at h

/-! ### What an action list depends on (R156, R400) -/

/-- Where the first result is a reaction at the first state, the second is the same reaction at the second. -/
def SameReaction (s₁ s₂ : State) (r₁ r₂ : Result) : Prop := ∀ as, r₁ = react as s₁ → r₂ = react as s₂

theorem sameReaction_react (as : List Action) : SameReaction s₁ s₂ (react as s₁) (react as s₂) := by
  intro as' h
  have hactions : as = as' := congrArg (·.pc.actions) (next_inj.1 h)
  rw [hactions]

theorem sameReaction_withLa {k₁ k₂ : LogicalAddr → Result} (hla : s₁.pc.la = s₂.pc.la)
    (hk : ∀ la, SameReaction s₁ s₂ (k₁ la) (k₂ la)) : SameReaction s₁ s₂ (withLa s₁ k₁) (withLa s₂ k₂) := by
  cases h : s₂.pc.la with
  | none =>
    rw [withLa_none (hla.trans h)]
    exact fun as has => nomatch has
  | some la =>
    rw [withLa_some (hla.trans h), withLa_some h]
    exact hk la

theorem sameReaction_replyIfUnicast (build : LogicalAddr → LogicalAddr → List Byte) (h : Header)
    (hla : s₁.pc.la = s₂.pc.la) : SameReaction s₁ s₂ (replyIfUnicast build h s₁) (replyIfUnicast build h s₂) :=
  sameReaction_withLa hla fun _ => sameReaction_react _

theorem sameReaction_routingReply (operand : Option PhysicalAddr) (hla : s₁.pc.la = s₂.pc.la)
    (hpa : s₁.pc.pa = s₂.pc.pa) : SameReaction s₁ s₂ (routingReply operand s₁) (routingReply operand s₂) := by
  unfold routingReply
  rw [hpa]
  split
  · exact sameReaction_withLa hla fun _ => sameReaction_react _
  · exact sameReaction_react []

/-- Only Give Physical Address and the routing messages read `pc.PA`. -/
theorem exec_sameReaction (i : Instr) (hla : s₁.pc.la = s₂.pc.la) (hpa : s₁.pc.pa = s₂.pc.pa) :
    SameReaction s₁ s₂ (exec i s₁) (exec i s₂) := by
  cases i with
  | giveOsdName h ops => exact sameReaction_replyIfUnicast _ h hla
  | giveAudioStatus h ops => exact sameReaction_replyIfUnicast _ h hla
  | giveSystemAudioModeStatus h ops => exact sameReaction_replyIfUnicast _ h hla
  | givePhysicalAddress h ops =>
    simp only [exec, execGivePhysicalAddress, hpa]
    exact sameReaction_replyIfUnicast _ h hla
  | giveDeviceVendorId h ops => exact sameReaction_replyIfUnicast (fun la _ => frameDeviceVendorId la) h hla
  | giveDevicePowerStatus h ops => exact sameReaction_replyIfUnicast _ h hla
  | getCecVersion h ops => exact sameReaction_replyIfUnicast _ h hla
  | routingChange h ops => exact sameReaction_routingReply _ hla hpa
  | setStreamPath h ops => exact sameReaction_routingReply _ hla hpa
  | _ => exact sameReaction_react _

/-! ### The table on raw bytes (R450) -/

/-- The opcode bytes with a handler of their own; all others are logged as unrecognized (R404). -/
def handledOpcodes : List Byte :=
  [0x44, 0x45, 0x46, 0x71, 0x7D, 0x80, 0x83, 0x84, 0x86, 0x87, 0x8C, 0x8F, 0x9F]

/-- An instruction whose opcode byte has no handler is logged as unrecognized (R404). -/
theorem exec_unhandled {i : Instr} (hopcode : i.opcode = some op) (hop : op ∉ handledOpcodes) (s : State) :
    exec i s = react [.log (.unrecognized op (i.operands.length + 2))] s := by
  cases i with
  | poll h => cases hopcode
  | userControlPressed h ops | userControlReleased h ops | giveOsdName h ops | giveAudioStatus h ops
  | giveSystemAudioModeStatus h ops | routingChange h ops | givePhysicalAddress h ops | reportPhysicalAddress h ops
  | setStreamPath h ops | deviceVendorId h ops | giveDeviceVendorId h ops | giveDevicePowerStatus h ops
  | getCecVersion h ops =>
    cases hopcode
    exact absurd (by decide) hop
  | _ => cases hopcode; rfl

theorem dispatchTable_unhandled (hop : op ∉ handledOpcodes) :
    dispatchTable (b :: op :: ops) la pa = [.log (.unrecognized op (ops.length + 2))] := by
  unfold dispatchTable
  simp only [List.length_cons]
  split
  · omega
  · split
    case h_14 => rfl
    all_goals exact absurd (by rw [(BitVec.toNat_eq_nat.1 ‹(op : Byte).toNat = _›).2]; decide) hop

theorem headerOf_eq_iff : headerOf b = h ↔ b = headerByte h := by
  constructor <;> rintro rfl <;> simp

theorem dispatchTable_userControlPressed : dispatchTable (b :: 0x44#8 :: ops) la pa = [pressReaction ops] := by
  cases ops with
  | nil => rfl
  | cons u rest =>
    rw [pressReaction_cons]
    cases hkey : Config.keymap u <;> simp [dispatchTable, hkey]

/-- The two root cues of the table compare the whole header byte (R403). -/
theorem dispatchTable_rootCue (hop : op = 0x84#8 ∨ op = 0x87#8) :
    dispatchTable (b :: op :: ops) la pa = if headerOf b = ⟨0x0, 0xF⟩ then [.reannounce] else [] := by
  obtain rfl | rfl := hop <;> exact if_congr (headerOf_eq_iff (h := ⟨0x0, 0xF⟩)).symm rfl rfl

theorem dispatchTable_routingChange :
    dispatchTable (b :: 0x80#8 :: ops) la pa =
      if 4 ≤ ops.length ∧ pa ≠ 0x0000#16 ∧ ops.getD 2 0 ++ ops.getD 3 0 = pa then
        [.send (frameImageViewOn la), .send (frameActiveSource la pa)] else [] := if_congr (by simp) rfl rfl

theorem dispatchTable_setStreamPath :
    dispatchTable (b :: 0x86#8 :: ops) la pa =
      if 2 ≤ ops.length ∧ pa ≠ 0x0000#16 ∧ ops.getD 0 0 ++ ops.getD 1 0 = pa then
        [.send (frameImageViewOn la), .send (frameActiveSource la pa)] else [] := if_congr (by simp) rfl rfl

/-- Row by row, a message of two bytes or more is handled as the table says (R400, R450). -/
theorem exec_messageOf_eq_dispatchTable (b op : Byte) (ops : List Byte) (hla : s.pc.la = some la) :
    exec (messageOf op (headerOf b) ops) s = react (dispatchTable (b :: op :: ops) la s.pc.pa) s := by
  have row {as : List Action} (hexec : exec (messageOf op (headerOf b) ops) s = react as s)
      (htable : dispatchTable (b :: op :: ops) la s.pc.pa = as) :
      exec (messageOf op (headerOf b) ops) s = react (dispatchTable (b :: op :: ops) la s.pc.pa) s := by
    rw [hexec, htable]
  have reply (build : LogicalAddr → LogicalAddr → List Byte) := replyIfUnicast_eq build (headerOf b) hla
  by_cases hop : op ∈ handledOpcodes
  · simp only [handledOpcodes, List.mem_cons, List.not_mem_nil, or_false] at hop
    obtain rfl | rfl | rfl | rfl | rfl | rfl | rfl | rfl | rfl | rfl | rfl | rfl | rfl := hop
    · exact row rfl dispatchTable_userControlPressed
    · exact row (as := [.key Config.noKey]) rfl rfl
    · exact row (reply frameSetOsdName) rfl
    · exact row (reply frameReportAudioStatus) rfl
    · exact row (reply frameReportSamStatus) rfl
    · exact row (routingReply_operandPa ops 2 hla) dispatchTable_routingChange
    · exact row (reply fun la _ => frameReportPhysicalAddress la s.pc.pa) rfl
    · exact row (reannounceOnCue_eq _ s) (dispatchTable_rootCue (.inl rfl))
    · exact row (routingReply_operandPa ops 0 hla) dispatchTable_setStreamPath
    · exact row (reannounceOnCue_eq _ s) (dispatchTable_rootCue (.inr rfl))
    · exact row (reply fun la _ => frameDeviceVendorId la) rfl
    · exact row (reply frameReportPowerStatus) rfl
    · exact row (reply frameCecVersion) rfl
  · exact row (exec_unhandled (opcode_messageOf op (headerOf b) ops) hop s)
      (by rw [dispatchTable_unhandled hop, operands_messageOf])

/-! ### The ACT label (R445, R511, R513) -/

theorem State.goto_of_run (hop : s.pc.op = .run) (l : Point) :
    s.goto l = { s with pc := { s.pc with point := l } } := by rw [State.goto, ← hop]

theorem pcStep_resolving (hop : s.pc.op = .resolving) : pcStep s = .next (afterResolve (resolveEnd s)) := by
  simp [pcStep, hop]

theorem pcStep_sending_txDone {why : SendFor} {acked : Bool} (hop : s.pc.op = .sending why)
    (hslot : s.notifySlot = some (.txDone acked)) : pcStep s = .next (sendResult why acked s.takeNotification) := by
  simp [pcStep, hop, hslot]

theorem pcStep_act (hpoint : s.pc.point = .act) (hop : s.pc.op = .run) : pcStep s = actStep s := by
  simp [pcStep_run hop, labelStep, hpoint]

theorem actStep_nil (h : s.pc.actions = []) : actStep s = .next (s.goto .receive) := by simp [actStep, h]

theorem actStep_cons {a : Action} {rest : List Action} (h : s.pc.actions = a :: rest) :
    actStep s = execute a { s with pc := { s.pc with actions := rest } } := by simp [actStep, h]

theorem announceStart_some (hla : s.pc.la = some la) :
    announceStart s = sendStart .announce (frameReportPhysicalAddress la s.pc.pa) s := withLa_some hla

/-! ### A poll's result (R430, R515) -/

/-- The first candidate whose poll is not acknowledged is taken. -/
theorem allocResult_free (s : State) :
    allocResult false s = afterAlloc { s with pc := { s.pc with la := some Config.candidates[s.pc.allocI] } } := rfl

theorem allocResult_next (h : s.pc.allocI.val < 3) :
    allocResult true s =
      { s with pc := { s.pc with allocI := ⟨s.pc.allocI.val + 1, by omega⟩, op := .poll } } := by
  rw [allocResult, if_pos rfl, dif_pos (by omega)]

/-- With all four candidates acknowledged the last one is taken and the exhaustion logged. -/
theorem allocResult_exhausted (h : s.pc.allocI.val = 3) :
    allocResult true s =
      afterAlloc { s.log .alloc .addressExhausted with
        pc := { s.pc with la := some Config.candidates[3] } } := by
  rw [allocResult, if_pos rfl, dif_neg (by omega)]
  rfl

/-- Inside a Reannounce an allocation that has written `pc.LA` goes on to the announcement. -/
theorem afterAlloc_pc_of_act {t : State} {la : Option LogicalAddr} (hpoint : s.pc.point = .act)
    (ht : t.pc = { s.pc with la := la }) : (afterAlloc t).pc = { s.pc with la := la, op := .announce } := by
  rw [afterAlloc_of_act (by simp [ht, hpoint])]
  simp [State.atOp, ht]

/-- An allocation ends with an unacknowledged poll or with the last candidate. -/
theorem exists_allocResult_pc_of_act {acked : Bool} (hpoint : s.pc.point = .act)
    (hend : acked = false ∨ s.pc.allocI.val = 3) :
    ∃ la, (allocResult acked s).pc = { s.pc with la := la, op := .announce } := by
  cases acked with
  | false =>
    rw [allocResult_free]
    exact ⟨_, afterAlloc_pc_of_act hpoint rfl⟩
  | true =>
    rw [allocResult_exhausted (by simpa using hend)]
    exact ⟨_, afterAlloc_pc_of_act hpoint rfl⟩

end Sys2Proof.Machine

namespace Sys2Proof.Proofs

open Sys2Proof.Machine

/-- Settles O10: one byte is a Poll, and of any other frame the opcode byte has a handler, whose answer is its row of
the table, or has none and is logged. -/
theorem dispatchIsTheTableOnBytes : Obligations.DispatchIsTheTableOnBytes := by
  intro f hpos hle
  match f with
  | [] => simp at hpos
  | [b] => exact ⟨_, decode_singleton b, fun _ _ _ => rfl⟩
  | b :: op :: ops =>
    exact ⟨_, decode_of_operandsFit (Nat.le_of_add_le_add_right (b := 2) hle),
      fun _ _ hla => exec_messageOf_eq_dispatchTable b op ops hla⟩

/-- Settles O19: an instruction that answers a next state has handed a list to ACT and done nothing else. -/
theorem instructionFrame : Obligations.InstructionFrame := by
  intro i s t h
  obtain ⟨as, -, rfl⟩ := exec_eq_next h
  exact ⟨fun _ => rfl, fun _ => rfl, rfl, rfl, rfl, rfl, rfl, rfl, rfl⟩

/-- Settles O20: the handlers read `pc.LA` and `pc.PA` and no other state. -/
theorem dispatchDependsOnAddressesOnly : Obligations.DispatchDependsOnAddressesOnly := by
  intro i s₁ s₂ t₁ hla hpa h
  obtain ⟨as, has, rfl⟩ := exec_eq_next h
  exact ⟨_, exec_sameReaction i hla hpa as has, rfl⟩

/-- Settles O21: a list with a Reannounce has the shape of a single action, and every frame built has room for its
operands. -/
theorem dispatchActionLists : Obligations.DispatchActionLists := by
  intro i s t h
  refine ⟨(exec_reactionShaped i s t h).reannounce_alone, fun g hg => ?_⟩
  have hsendable : (Action.send g).sendable = true := List.all_eq_true.1 (exec_actsSendable i s t h) _ hg
  exact sendable_iff.1 hsendable

/-- Settles O11: the Poll hands the empty list to ACT. -/
theorem pollHasNoReaction : Obligations.PollHasNoReaction := fun _ => react_eq []

/-- Settles O12: each of these messages is handed to the default reaction with its own opcode. -/
theorem unhandledOpcodesAreLoggedLow : Obligations.UnhandledOpcodesAreLoggedLow := by
  refine ⟨fun _ _ => rfl, fun h ops s => ?_⟩
  have logged (op : Byte) := logUnrecognized_eq op ops s
  exact ⟨logged 0x04, logged 0x0D, logged 0x36, logged 0x47, logged 0x70, logged 0x72, logged 0x7A, logged 0x7E,
    logged 0x81⟩

/-- Settles O13: each of these messages, and the default row, is handed to the default reaction with its own opcode. -/
theorem unhandledOpcodesAreLoggedHigh : Obligations.UnhandledOpcodesAreLoggedHigh := by
  intro h ops s
  have logged (op : Byte) := logUnrecognized_eq op ops s
  exact ⟨logged 0x82, logged 0x85, logged 0x8E, logged 0x90, logged 0x91, logged 0x9D, logged 0x9E, logged 0xA0,
    logged 0xFF, logged⟩

/-- Settles O14: the reaction to a press is one action, by the operand and its keycode; to a release NO_KEY. -/
theorem userControlGivesKeys : Obligations.UserControlGivesKeys :=
  ⟨fun _ => rfl, fun _ _ => rfl, fun _ s => ⟨react_eq [pressReaction []] s,
    fun u rest => congrArg (fun a => react [a] s) (pressReaction_cons u rest), fun _ => react_eq [.key Config.noKey] s⟩⟩

/-- Settles O15: one shape of handler, each with its own frame builder. -/
theorem unicastRequestsAreAnswered : Obligations.UnicastRequestsAreAnswered := by
  intro h ops s la hla
  have reply (build : LogicalAddr → LogicalAddr → List Byte) := replyIfUnicast_eq build h hla
  exact ⟨reply frameSetOsdName, reply frameReportAudioStatus, reply frameReportSamStatus,
    reply fun la _ => frameReportPhysicalAddress la s.pc.pa, reply fun la _ => frameDeviceVendorId la,
    reply frameReportPowerStatus, reply frameCecVersion⟩

/-- Settles O16: one shape of handler, with the operand at bytes 4 and 5 of the frame or at bytes 2 and 3. -/
theorem routingMessagesAreAnswered : Obligations.RoutingMessagesAreAnswered := fun _ ops _ _ hla =>
  ⟨routingReply_operandPa ops 2 hla, routingReply_operandPa ops 0 hla⟩

/-- Settles O17: both messages are handed to the one handler of the root cue. -/
theorem rootCueReannounces : Obligations.RootCueReannounces := fun h _ s =>
  ⟨reannounceOnCue_eq h s, reannounceOnCue_eq h s⟩

/-- Settles O45: the first action of the list by its kind, then each operation of a Reannounce with where PC goes when
it has ended at ACT. -/
theorem actExecutesInOrder : Obligations.ActExecutesInOrder := by
  intro s hpoint
  refine ⟨fun hop => ⟨fun hnil => ?_, fun rest => ⟨fun g h => ?_, fun k h => ?_, fun e h => ?_, fun h => ?_⟩⟩,
    fun hop => ?_, fun acked hop hslot => ?_, fun hop la hla => ?_, fun acked hop hslot => ?_⟩
  · rw [pcStep_act hpoint hop, actStep_nil hnil, State.goto_of_run hop]
  · rw [pcStep_act hpoint hop, actStep_cons h]
    rfl
  · rw [pcStep_act hpoint hop, actStep_cons h]
    rfl
  · rw [pcStep_act hpoint hop, actStep_cons h]
    rfl
  · rw [pcStep_act hpoint hop, actStep_cons h]
    rfl
  · obtain ⟨pa, log, hend⟩ := resolveEnd_eq s
    rw [pcStep_resolving hop, afterResolve_of_act (by simp [hend, hpoint]), hend]
    exact ⟨_, rfl, rfl⟩
  · refine ⟨allocResult acked s.takeNotification, pcStep_sending_txDone hop hslot, fun hend => ?_,
      fun hacked hlt => ?_⟩
    · obtain ⟨la, hpc⟩ := exists_allocResult_pc_of_act (s := s.takeNotification) hpoint hend
      rw [hpc]
      rfl
    · rw [hacked, allocResult_next (s := s.takeNotification) hlt]
      rfl
  · rw [pcStep_announce hop, announceStart_some hla]
    rfl
  · obtain hop | hop := hop
    · rw [pcStep_sending_txDone hop hslot, sendResult, afterAnnounce_of_act (s := s.takeNotification) hpoint]
      rfl
    · rw [pcStep_sending_txDone hop hslot]
      rfl

end Sys2Proof.Proofs
end

section
/-! PROOFS. The EDID parser (R470 to R492): the sums of the checks as numbers and under a change of one byte, the scan
as a search of the blocks of the collection, and the end of a resolve. -/

namespace Sys2Proof.Machine

variable {s : State} {e l : List Byte} {c : Cause} {pa : PhysicalAddr} {i j k m : Nat} {v : Byte}

/-! ### Sums (R473, R474) -/

theorem byteSum_eq_sum (l : List Byte) : byteSum l = l.sum := List.sum_eq_foldl.symm

theorem byteSum_eq_zero_iff (l : List Byte) : byteSum l = 0 ↔ (l.map BitVec.toNat).sum % 256 = 0 := by
  rw [← BitVec.toNat_inj, byteSum_toNat]
  rfl

/-- Replacing one byte changes the sum by the difference of the two bytes. -/
theorem byteSum_set (hk : k < l.length) : byteSum (l.set k v) = byteSum l + (-l[k] + v) := by
  rw [byteSum_eq_sum, byteSum_eq_sum, List.sum_set', dif_pos hk]

/-- So a sum of 0 stays one only under the same byte. -/
theorem byteSum_set_ne_zero (hsum : byteSum l = 0) (hk : k < l.length) (hv : l[k] ≠ v) : byteSum (l.set k v) ≠ 0 := by
  rw [byteSum_set hk, hsum, zero_add, Ne, neg_add_eq_zero]
  exact hv

/-! ### The checks (R472 to R477) -/

theorem baseChecksumOk_iff (e : List Byte) :
    baseChecksumOk e = true ↔ ((e.take 128).map BitVec.toNat).sum % 256 = 0 :=
  beq_iff_eq.trans (byteSum_eq_zero_iff _)

theorem extChecksumOk_iff (hlen : e.length = 256) :
    extChecksumOk e = true ↔ ((e.drop 128).map BitVec.toNat).sum % 256 = 0 := by
  have hwhole : (e.drop 128).take 128 = e.drop 128 := List.take_of_length_le (by simp [hlen])
  rw [extChecksumOk, Config.edidBlock, hwhole]
  exact beq_iff_eq.trans (byteSum_eq_zero_iff _)

theorem headerOk_iff (e : List Byte) :
    headerOk e = true ↔ e.take 8 = [0x00, 0xFF, 0xFF, 0xFF, 0xFF, 0xFF, 0xFF, 0x00] := beq_iff_eq

theorem imageByte_eq_iff (hk : k < e.length) : imageByte e k = v ↔ e[k]? = some v := by
  simp [imageByte, hk]

theorem ctaOk_iff (hlen : e.length = 256) :
    ctaOk e = true ↔ e[128]? = some 0x02#8 ∧ e[129]? = some 0x03#8 := by
  rw [← imageByte_eq_iff (by omega), ← imageByte_eq_iff (by omega)]
  simp [ctaOk, extByte, Config.ctaTag, Config.edidBlock]

theorem parse_of_badBase (h : ¬ baseChecksumOk e = true) : parse e = .failed .edidBaseChecksum := by simp [parse, h]

theorem parse_of_badExt (hbase : baseChecksumOk e = true) (h : ¬ extChecksumOk e = true) :
    parse e = .failed .edidExtChecksum := by simp [parse, hbase, h]

theorem parse_of_badHeader (hbase : baseChecksumOk e = true) (hext : extChecksumOk e = true)
    (h : ¬ headerOk e = true) : parse e = .failed .edidHeaderErr := by simp [parse, hbase, hext, h]

theorem parse_of_badCta (hbase : baseChecksumOk e = true) (hext : extChecksumOk e = true)
    (hheader : headerOk e = true) (h : ¬ ctaOk e = true) : parse e = .failed .edidNoCta := by
  simp [parse, hbase, hext, hheader, h]

theorem parse_of_checked (hbase : baseChecksumOk e = true) (hext : extChecksumOk e = true)
    (hheader : headerOk e = true) (hcta : ctaOk e = true) : parse e = scan e := by
  simp [parse, hbase, hext, hheader, hcta]

theorem baseChecksumOk_of_parse_address (h : parse e = .address pa) : baseChecksumOk e = true := by
  by_contra hbad
  simp [parse_of_badBase hbad] at h

/-- An image with a good base block has a bad one after a change of one byte of it (R492). -/
theorem not_baseChecksumOk_set (hbase : baseChecksumOk e = true) (hlen : 128 ≤ e.length) (hk : k < 128)
    (hv : e[k]? ≠ some v) : ¬ baseChecksumOk (e.set k v) = true := by
  have hin : k < e.length := by omega
  have hne : e[k] ≠ v := by simpa [hin] using hv
  rw [baseChecksumOk, List.take_set, beq_iff_eq]
  exact byteSum_set_ne_zero (beq_iff_eq.1 hbase) (by simp [Config.edidBlock, hk, hin]) (by simpa using hne)

/-! ### The scan (R480, R485 to R487) -/

theorem dtdStart_le (e : List Byte) : dtdStart e ≤ 127 := min_le_right _ _

theorem blockChain_succ_of_inside (h : i + blockLength (extByte e i) < dtdStart e) :
    blockChain e (k + 1) i = i :: blockChain e k (i + 1 + blockLength (extByte e i)) :=
  if_pos (show i + 1 + blockLength (extByte e i) ≤ dtdStart e by omega)

theorem blockChain_of_overrun (h : dtdStart e ≤ i + blockLength (extByte e i)) : blockChain e k i = [] := by
  cases k with
  | zero => rfl
  | succ k => exact if_neg (show ¬ i + 1 + blockLength (extByte e i) ≤ dtdStart e by omega)

/-- Every block of the chain starts at or after its first offset and ends inside the collection. -/
theorem mem_blockChain (hi : i ∈ blockChain e k j) : j ≤ i ∧ i + blockLength (extByte e i) < dtdStart e := by
  induction k generalizing j with
  | zero => simp [blockChain] at hi
  | succ k ih =>
    obtain hinside | hover := Nat.lt_or_ge (j + blockLength (extByte e j)) (dtdStart e)
    · rw [blockChain_succ_of_inside hinside, List.mem_cons] at hi
      obtain rfl | hrest := hi
      · exact ⟨le_rfl, hinside⟩
      · obtain ⟨hle, hlt⟩ := ih hrest
        exact ⟨by omega, hlt⟩
    · simp [blockChain_of_overrun hover] at hi

/-- The chain ends by itself: each block moves the offset on, and the collection ends at 127 at the latest. -/
theorem blockChain_eq_of_le (henough : 127 ≤ i + k) (hkm : k ≤ m) : blockChain e m i = blockChain e k i := by
  induction k generalizing i m with
  | zero =>
    have hend := dtdStart_le e
    exact blockChain_of_overrun (by omega)
  | succ k ih =>
    obtain ⟨m, rfl⟩ := Nat.exists_eq_add_of_le' (Nat.one_le_of_lt hkm)
    obtain hinside | hover := Nat.lt_or_ge (i + blockLength (extByte e i)) (dtdStart e)
    · rw [blockChain_succ_of_inside hinside, blockChain_succ_of_inside hinside, ih (by omega) (by omega)]
    · rw [blockChain_of_overrun hover, blockChain_of_overrun hover]

/-- The loop searches the chain of blocks for the first HDMI block. -/
theorem scanFrom_eq_find (e : List Byte) (k i : Nat) :
    scanFrom e k i =
      ((blockChain e k i).find? (isHdmiVsdb e)).elim (.failed .edidNoVsdb) fun j => .address (vsdbPa e j) := by
  induction k generalizing i with
  | zero => rfl
  | succ k ih =>
    rw [scanFrom]
    obtain hinside | hover := Nat.lt_or_ge (i + blockLength (extByte e i)) (dtdStart e)
    · rw [if_pos (by omega), if_neg (by omega), blockChain_succ_of_inside hinside, ih, List.find?_cons]
      cases isHdmiVsdb e i <;> rfl
    · rw [if_pos hover, ite_self, blockChain_of_overrun hover]
      rfl

theorem scanFrom_eq_of_le (henough : 127 ≤ i + k) (hkm : k ≤ m) : scanFrom e m i = scanFrom e k i := by
  rw [scanFrom_eq_find, scanFrom_eq_find, blockChain_eq_of_le henough hkm]

/-- The three conditions on a block, byte by byte (R480, R481, R487). -/
theorem isHdmiVsdb_eq (e : List Byte) (i : Nat) :
    isHdmiVsdb e i =
      (blockTag (extByte e i) == 3#3 && decide (5 ≤ blockLength (extByte e i)) && extByte e (i + 1) == 0x03#8 &&
        extByte e (i + 2) == 0x0C#8 && extByte e (i + 3) == 0x00#8) := by
  simp [isHdmiVsdb, Config.vsdbTag, Config.hdmiOuiStored, Bool.and_assoc]

/-! ### The end of a resolve (R470, R471, R490) -/

theorem State.pcReady_of_resolving (hop : s.pc.op = .resolving) :
    s.pcReady = true ↔
      s.edidRsp ≠ none ∨ ∃ q, s.edidReq = some q ∧ Config.edidTimeout ≤ (s.elapsed q.since).toNat := by
  cases hreq : s.edidReq <;> simp [State.pcReady, hop, hreq, Option.isSome_iff_ne_none]

theorem resolveAnswer_of_length_ne (h : e.length ≠ 256) : resolveAnswer (some (.ok e)) = .failed .edidBusErr := if_neg h

theorem resolveAnswer_of_length (h : e.length = 256) : resolveAnswer (some (.ok e)) = parse e := if_pos h

@[simp] theorem afterResolve_edidReq (s : State) : (afterResolve s).edidReq = s.edidReq := by
  unfold afterResolve
  split <;> rfl

@[simp] theorem afterResolve_edidRsp (s : State) : (afterResolve s).edidRsp = s.edidRsp := by
  unfold afterResolve
  split <;> rfl

@[simp] theorem afterResolve_pc_la (s : State) : (afterResolve s).pc.la = s.pc.la := by
  unfold afterResolve
  split <;> rfl

@[simp] theorem afterResolve_pc_pa (s : State) : (afterResolve s).pc.pa = s.pc.pa := by
  unfold afterResolve
  split <;> rfl

/-- A failed resolve writes the unknown address and is logged with its cause. -/
theorem resolve_of_failed (h : resolveAnswer s.edidRsp = .failed c) :
    (afterResolve (resolveEnd s)).pc.pa = 0x0000#16 ∧
      (afterResolve (resolveEnd s)).logq = s.logq ++ [⟨s.clock, .edid, .edidError c⟩] := by
  rw [afterResolve_pc_pa, afterResolve_logq, resolveEnd, h]
  exact ⟨rfl, rfl⟩

theorem resolve_of_address (h : resolveAnswer s.edidRsp = .address pa) :
    (afterResolve (resolveEnd s)).pc.pa = pa ∧ (afterResolve (resolveEnd s)).logq = s.logq := by
  rw [afterResolve_pc_pa, afterResolve_logq, resolveEnd, h]
  exact ⟨rfl, rfl⟩

/-- However it ends, a resolve takes the answer with its request and leaves `pc.LA` alone. -/
theorem resolve_takesAnswer (s : State) :
    (afterResolve (resolveEnd s)).edidReq = none ∧ (afterResolve (resolveEnd s)).edidRsp = none ∧
      (afterResolve (resolveEnd s)).pc.la = s.pc.la := by
  obtain ⟨pa, log, hend⟩ := resolveEnd_eq s
  simp [hend]

end Sys2Proof.Machine

namespace Sys2Proof.Proofs

open Sys2Proof.Machine

/-- Settles O51: each check as a statement about numbers or bytes, then the outcome of the first that fails. -/
theorem parseChecksInOrder : Obligations.ParseChecksInOrder := by
  refine ⟨⟨rfl, rfl, rfl, rfl⟩, fun e hlen => ?_⟩
  simp only [← baseChecksumOk_iff, ← extChecksumOk_iff hlen, ← headerOk_iff, ← ctaOk_iff hlen]
  exact ⟨parse_of_badBase, parse_of_badExt, parse_of_badHeader, parse_of_badCta, parse_of_checked⟩

/-- Settles O52: the loop is a search of the chain of blocks, and 128 blocks are more than fit below offset 127. -/
theorem scanTakesFirstHdmiBlock : Obligations.ScanTakesFirstHdmiBlock := by
  refine ⟨rfl, fun e => ⟨?_, fun turns => scanFrom_eq_of_le (by decide), fun i hi => ?_⟩⟩
  · rw [scan, scanFrom_eq_find, funext (isHdmiVsdb_eq e)]
    split
    · next i hfirst => exact congrArg (Option.elim · _ _) hfirst
    · next hnone => exact congrArg (Option.elim · _ _) hnone
  · obtain ⟨hge, hend⟩ := mem_blockChain hi
    exact ⟨hge, hend.trans_le (dtdStart_le e)⟩

/-- Settles O53: a change of one byte of the base block changes its sum. -/
theorem corruptBaseByteFailsParse : Obligations.CorruptBaseByteFailsParse := fun _ _ _ _ hlen hparse hk hv =>
  parse_of_badBase (not_baseChecksumOk_set (baseChecksumOk_of_parse_address hparse) (by omega) hk hv)

/-- Settles O50: the answer the resolve takes, by its kind and length. -/
theorem resolveWritesWholeResult : Obligations.ResolveWritesWholeResult := by
  refine ⟨rfl, rfl, fun s hop => ⟨State.pcReady_of_resolving hop, takeMove_pc_of_blocked, fun hready => ?_⟩⟩
  obtain ⟨hreq, hrsp, hla⟩ := resolve_takesAnswer s
  obtain ⟨hrx, htx⟩ := recordsKept_resolve s
  refine ⟨afterResolve (resolveEnd s), (takeMove_pc_of_ready hready).trans (pcStep_resolving hop), hreq, hrsp, hla, hrx,
    htx, fun h => resolve_of_failed (by rw [h]; rfl), fun h => resolve_of_failed (by rw [h]; rfl),
    fun e h => ⟨fun hlen => ?_, fun hlen => ⟨fun pa hpa => ?_, fun c hc => ?_⟩⟩⟩
  · exact resolve_of_failed (by rw [h, resolveAnswer_of_length_ne hlen])
  · exact resolve_of_address (by rw [h, resolveAnswer_of_length hlen, hpa])
  · exact resolve_of_failed (by rw [h, resolveAnswer_of_length hlen, hc])

end Sys2Proof.Proofs
end

section
/-! PROOFS. The protocol context (R511, R512, R515, R516): the first line of each label of the startup, what a poll's
result does to the allocation, and an allocation run over the results of its polls. -/

namespace Sys2Proof.Machine

variable {s : State} {acked : Bool} {rest : List Bool} {i : Fin 4}

/-! ### The first lines of the startup's labels (R511, R512) -/

theorem pcStep_poll (hop : s.pc.op = .poll) : pcStep s = allocPoll s := by simp [pcStep, hop]

theorem labelStep_boot (hpoint : s.pc.point = .boot) : labelStep s = .next (s.goto .resolve) := by
  simp [labelStep, hpoint]

theorem labelStep_resolve (hpoint : s.pc.point = .resolve) : labelStep s = .next (resolveStart s) := by
  simp [labelStep, hpoint]

theorem labelStep_alloc (hpoint : s.pc.point = .alloc) : labelStep s = .next (allocStart s) := by
  simp [labelStep, hpoint]

/-! ### The end of an allocation changes only where PC stands -/

@[simp] theorem afterAlloc_notifySlot (s : State) : (afterAlloc s).notifySlot = s.notifySlot := by
  unfold afterAlloc
  split <;> rfl

@[simp] theorem afterAlloc_pc_la (s : State) : (afterAlloc s).pc.la = s.pc.la := by
  unfold afterAlloc
  split <;> rfl

@[simp] theorem afterAlloc_pc_pa (s : State) : (afterAlloc s).pc.pa = s.pc.pa := by
  unfold afterAlloc
  split <;> rfl

@[simp] theorem afterAlloc_pc_allocI (s : State) : (afterAlloc s).pc.allocI = s.pc.allocI := by
  unfold afterAlloc
  split <;> rfl

theorem afterAlloc_pc_op_ne_poll (s : State) : (afterAlloc s).pc.op ≠ .poll := by
  unfold afterAlloc
  split <;> simp

theorem afterAlloc_pc_of_alloc (hpoint : s.pc.point = .alloc) :
    (afterAlloc s).pc.point = .announce ∧ (afterAlloc s).pc.op = .run := by
  rw [afterAlloc_of_alloc hpoint]
  exact ⟨rfl, rfl⟩

/-! ### A poll's result (R515) -/

@[simp] theorem allocResult_notifySlot (acked : Bool) (s : State) :
    (allocResult acked s).notifySlot = s.notifySlot := by
  unfold allocResult
  split
  · split
    · rfl
    · simp
  · simp

@[simp] theorem allocResult_pc_pa (acked : Bool) (s : State) : (allocResult acked s).pc.pa = s.pc.pa := by
  unfold allocResult
  split
  · split
    · rfl
    · simp
  · simp

/-- An allocation ends with an unacknowledged poll or with the last candidate. At the startup PC goes on to ANNOUNCE. -/
theorem allocResult_pc_of_alloc (hpoint : s.pc.point = .alloc) (hend : acked = false ∨ s.pc.allocI.val = 3) :
    (allocResult acked s).pc.point = .announce ∧ (allocResult acked s).pc.op = .run := by
  cases acked with
  | false => exact afterAlloc_pc_of_alloc hpoint
  | true =>
    rw [allocResult_exhausted (by simpa using hend)]
    exact afterAlloc_pc_of_alloc hpoint

/-! ### An allocation as a whole (R515, R516) -/

/-- PC is about to poll candidate `i`. -/
def State.pollAt (s : State) (i : Fin 4) : State := { s with pc := { s.pc with allocI := i, op := .poll } }

theorem allocStart_eq_pollAt (s : State) : allocStart s = s.pollAt 0 := rfl

/-- A result that ends the allocation is the last one used. -/
theorem allocRun_of_ended (h : (allocResult acked s).pc.op ≠ .poll) :
    allocRun (acked :: rest) s = allocResult acked s := if_neg h

theorem allocRun_pollAt_next (h : i.val < 3) :
    allocRun (true :: rest) (s.pollAt i) = allocRun rest (s.pollAt ⟨i.val + 1, by omega⟩) := by
  rw [allocRun, allocResult_next (s := s.pollAt i) h]
  rfl

theorem allocRun_pollAt_free :
    allocRun (false :: rest) (s.pollAt i) =
      afterAlloc { s.pollAt i with pc := { (s.pollAt i).pc with la := some Config.candidates[i] } } :=
  allocRun_of_ended (afterAlloc_pc_op_ne_poll _)

theorem allocRun_pollAt_exhausted :
    allocRun (true :: rest) (s.pollAt 3) =
      afterAlloc { (s.pollAt 3).log .alloc .addressExhausted with
        pc := { (s.pollAt 3).pc with la := some Config.candidates[3] } } := by
  rw [← allocResult_exhausted (s := s.pollAt 3) rfl]
  exact allocRun_of_ended (afterAlloc_pc_op_ne_poll _)

/-- `t` is a state in which an allocation begun in `s` has ended, with this address and this log. -/
def AllocatedTo (s t : State) (la : LogicalAddr) (log : List LogEntry) : Prop :=
  t.pc.la = some la ∧ t.pc.op ≠ .poll ∧ t.pc.pa = s.pc.pa ∧ t.logq = log

theorem allocatedTo_free (s : State) (i : Fin 4) (rest : List Bool) :
    AllocatedTo s (allocRun (false :: rest) (s.pollAt i)) Config.candidates[i] s.logq := by
  rw [allocRun_pollAt_free]
  exact ⟨afterAlloc_pc_la _, afterAlloc_pc_op_ne_poll _, afterAlloc_pc_pa _, afterAlloc_logq _⟩

theorem allocatedTo_exhausted (s : State) (rest : List Bool) :
    AllocatedTo s (allocRun (true :: rest) (s.pollAt 3)) Config.candidates[3]
      (s.logq ++ [⟨s.clock, .alloc, .addressExhausted⟩]) := by
  rw [allocRun_pollAt_exhausted]
  exact ⟨afterAlloc_pc_la _, afterAlloc_pc_op_ne_poll _, afterAlloc_pc_pa _, afterAlloc_logq _⟩

end Sys2Proof.Machine

namespace Sys2Proof.Proofs

open Sys2Proof.Machine

/-- Settles O49: the first poll that is not acknowledged ends the allocation, else the last one does. -/
theorem allocationIsDetermined : Obligations.AllocationIsDetermined := by
  intro s a4 a8 aB aF
  rw [allocStart_eq_pollAt]
  cases a4 with
  | false => exact allocatedTo_free s 0 _
  | true =>
    rw [allocRun_pollAt_next (by decide)]
    cases a8 with
    | false => exact allocatedTo_free s 1 _
    | true =>
      rw [allocRun_pollAt_next (by decide)]
      cases aB with
      | false => exact allocatedTo_free s 2 _
      | true =>
        rw [allocRun_pollAt_next (by decide)]
        cases aF with
        | false => exact allocatedTo_free s 3 _
        | true => exact allocatedTo_exhausted s _

/-- Settles O5: the frame DISPATCH decodes is the delivered bytes. -/
theorem stepRunsDecodedInstruction : Obligations.StepRunsDecodedInstruction := fun _ _ _ => step_of_dispatch

/-- Settles O47: the first line of each label, then where PC goes from the end of each. -/
theorem startupOrder : Obligations.StartupOrder := by
  refine fun s => ⟨fun hop => ⟨fun hpoint => ?_, fun hpoint => ?_, fun hpoint => ?_, fun hpoint la hla => ?_⟩,
    fun hop hpoint => ?_, fun hop c hc => ?_, fun acked hop hpoint hslot => ?_, fun acked hop hpoint hslot => ?_⟩
  · rw [pcStep_run hop, labelStep_boot hpoint, State.goto_of_run hop]
  · rw [pcStep_run hop, labelStep_resolve hpoint, resolveStart]
  · rw [pcStep_run hop, labelStep_alloc hpoint, allocStart]
  · rw [pcStep_run hop, labelStep_announce hpoint, announceStart_some hla]
    rfl
  · obtain ⟨pa, log, hend⟩ := resolveEnd_eq s
    rw [pcStep_resolving hop, afterResolve_of_resolve (by simp [hend, hpoint])]
    exact ⟨_, rfl, rfl, rfl⟩
  · rw [pcStep_poll hop, allocPoll, hc]
    rfl
  · refine ⟨allocResult acked s.takeNotification, pcStep_sending_txDone hop hslot, allocResult_notifySlot _ _,
      allocResult_pc_of_alloc (s := s.takeNotification) hpoint, fun hacked hlt => ?_⟩
    rw [hacked, allocResult_next (s := s.takeNotification) hlt]
    exact ⟨hpoint, rfl⟩
  · rw [pcStep_sending_txDone hop hslot, sendResult, afterAnnounce_of_announce (s := s.takeNotification) hpoint]
    rfl

/-- Settles O48: the three outcomes, by the acknowledgement and the candidate polled. -/
theorem pollResult : Obligations.PollResult := by
  refine ⟨rfl, fun s acked hop hslot => ?_⟩
  obtain ⟨hrx, htx⟩ := recordsKept_allocResult acked s.takeNotification
  refine ⟨allocResult acked s.takeNotification, pcStep_sending_txDone hop hslot, allocResult_notifySlot _ _,
    allocResult_pc_pa _ _, hrx, htx, fun hacked => ?_, fun hacked hlt => ?_, fun hacked hlast => ?_⟩
  · rw [hacked, allocResult_free]
    exact ⟨afterAlloc_pc_la _, afterAlloc_pc_allocI _, afterAlloc_logq _⟩
  · rw [hacked, allocResult_next (s := s.takeNotification) hlt]
    exact ⟨rfl, rfl, rfl, rfl⟩
  · rw [hacked, allocResult_exhausted (s := s.takeNotification) hlast]
    exact ⟨afterAlloc_pc_la _, afterAlloc_logq _⟩

end Sys2Proof.Proofs
end

section
/-! PROOFS. The receiver's abort as a whole (R560), and a key's place in the key channel (R585). -/

namespace Sys2Proof.Machine

variable {s m t : State} {k : Byte} {since : Time}

/-! ### A receive that ends by an abort (R242, R560) -/

@[simp] theorem ackStart_rx_phase (s : State) : (ackStart s).rx.phase = s.rx.phase := by simp [ackStart]

theorem ne_abort_of_receiveInFlight (h : s.receiveInFlight = true) : s.rx.phase ≠ .abort := by
  obtain ⟨-, -, habort⟩ := State.receiveInFlight_iff.1 h
  exact habort

/-- Only `raise Abort` writes the phase Abort. -/
theorem RuleLeaves.exists_raiseAbort (h : RuleLeaves s t) (hs : s.rx.phase ≠ .abort) (ht : t.rx.phase = .abort) :
    ∃ c d, (1 ≤ c.code.toNat ∧ c.code.toNat ≤ 10) ∧ raiseAbort c d s = .next t := by
  cases h with
  | nothing => exact absurd ht hs
  | goesOn rx hgoing => exact absurd ht (ne_abort_of_receiveInFlight hgoing)
  | drivesAck rx hgoing =>
    rw [ackStart_rx_phase] at ht
    exact absurd ht (ne_abort_of_receiveInFlight hgoing)
  | completes rx n received hdone =>
    obtain ⟨hphase, -⟩ := hdone
    cases hphase.symm.trans ht
  | aborts hc habort => exact ⟨_, _, hc, habort⟩

/-- An RX step that enters Abort took an edge, and its rule raised the abort. -/
theorem exists_raiseAbort_of_rxStep (h : rxStep s = .next t) (hs : s.rx.phase ≠ .abort) (ht : t.rx.phase = .abort) :
    ∃ c d, (1 ≤ c.code.toNat ∧ c.code.toNat ≤ 10) ∧ s.notifySlot = none ∧ t = s.abortedWith c.code c d := by
  cases he : s.edgePending with
  | none =>
    obtain rfl : s = t := by simpa [rxStep, he] using h
    exact absurd ht hs
  | some e =>
    rw [rxStep_of_edgePending he] at h
    obtain ⟨m, hm, hexit⟩ := andThen_eq_next.1 h
    obtain rfl := next_inj.1 hexit
    rw [rxExit_rx] at ht
    obtain ⟨c, d, hc, habort⟩ := (rxTransition_leaves _ _ m hm).exists_raiseAbort hs ht
    obtain ⟨hslot, -⟩ := raiseAbort_eq_next.1 habort
    have hleft := rxExit_raiseAbort (s := s) (c := c) (d := d) hslot
    rw [habort] at hleft
    exact ⟨c, d, hc, hslot, next_inj.1 hleft⟩

/-! ### The key channel (R585) -/

theorem State.keyRoom_iff : s.keyRoom = true ↔ s.keyq.length < Config.keyqDepth := by simp [State.keyRoom]

theorem emitKey_of_room (h : s.keyq.length < Config.keyqDepth) : emitKey k s = { s with keyq := s.keyq ++ [k] } :=
  if_pos (State.keyRoom_iff.2 h)

theorem emitKey_of_full (h : Config.keyqDepth ≤ s.keyq.length) : emitKey k s = s.atOp (.keying k s.clock) :=
  if_neg (mt State.keyRoom_iff.1 h.not_gt)

theorem emitKeyEnd_of_room (h : s.keyq.length < Config.keyqDepth) :
    emitKeyEnd k s = { s.atOp .run with keyq := s.keyq ++ [k] } :=
  if_pos (State.keyRoom_iff.2 h)

theorem emitKeyEnd_of_full (h : Config.keyqDepth ≤ s.keyq.length) :
    emitKeyEnd k s = (s.atOp .run).log .key (.keyDropped k) :=
  if_neg (mt State.keyRoom_iff.1 h.not_gt)

theorem State.pcReady_of_keying (hop : s.pc.op = .keying k since) :
    s.pcReady = true ↔ s.keyq.length < Config.keyqDepth ∨ Config.keyqWait ≤ (s.clock - since).toNat := by
  simp only [State.pcReady, hop, Bool.or_eq_true, State.keyRoom_iff, decide_eq_true_eq]
  rfl

theorem pcStep_keying (hop : s.pc.op = .keying k since) : pcStep s = .next (emitKeyEnd k s) := by simp [pcStep, hop]

end Sys2Proof.Machine

namespace Sys2Proof.Proofs

open Sys2Proof.Machine

/-- Settles O27: of all that a rule can leave, only `raise Abort` leaves the phase Abort, and the handler's exit adds
nothing to it. -/
theorem everyAbortIsPrecise : Obligations.EveryAbortIsPrecise := by
  intro s t hstep hs ht
  obtain ⟨c, d, ⟨hlo, hhi⟩, hslot, rfl⟩ := exists_raiseAbort_of_rxStep hstep hs ht
  exact ⟨c, d, hlo, hhi, hslot, rfl⟩

/-- Settles O46: the start of `emit_key`, what PC is blocked on meanwhile, and the end, each by whether there is room. -/
theorem keyChannel : Obligations.KeyChannel := by
  refine ⟨fun _ => rfl, fun k s => ⟨emitKey_of_room, emitKey_of_full, fun since hop =>
    ⟨State.pcReady_of_keying hop, takeMove_pc_of_blocked, takeMove_pc_of_ready, fun hroom => ?_, fun hfull => ?_⟩⟩⟩
  · rw [pcStep_keying hop, emitKeyEnd_of_room hroom]
    rfl
  · rw [pcStep_keying hop, emitKeyEnd_of_full hfull]
    rfl

end Sys2Proof.Proofs
end

section
/-! PROOFS. Where a step stops on a model fault (R553): a notification into a full slot, and a read of state that has no
value. -/

namespace Sys2Proof.Machine

variable {s t : State} {p : Polarity} {r r₀ : Result}

/-! ### NOTIFY_FULL (R104) -/

/-- Wherever `r₀`, answered with the slot empty, leaves a notification, `r` is the fault NOTIFY_FULL. -/
def NotifiesIntoFull (r₀ r : Result) : Prop := Answers (fun t => t.notifySlot ≠ none → r = .fault .notifyFull) r₀

theorem notifiesIntoFull_of_keeps (h : Answers (fun t => t.notifySlot = none) r₀) : NotifiesIntoFull r₀ r :=
  h.mono fun _ hnone hsome => absurd hnone hsome

theorem notifiesIntoFull_next (h : t.notifySlot = none) : NotifiesIntoFull (.next t) r :=
  notifiesIntoFull_of_keeps (answers_next.2 h)

theorem notify_of_full {v : Notification} (h : s.notifySlot ≠ none) : notify v s = .fault .notifyFull := by
  obtain ⟨w, hw⟩ := Option.ne_none_iff_exists'.1 h
  exact notify_full hw

theorem notifiesIntoFull_notify (v : Notification) (h : s.notifySlot ≠ none) : NotifiesIntoFull r₀ (notify v s) :=
  fun _ _ _ => notify_of_full h

theorem notifiesIntoFull_raiseAbort (c : Cause) (d : Option Time) (h : s.notifySlot ≠ none) :
    NotifiesIntoFull r₀ (raiseAbort c d s) := notifiesIntoFull_notify _ h

theorem notifiesIntoFull_withInterval {k₀ k : Time → Result} (h : ∀ d, NotifiesIntoFull (k₀ d) (k d)) :
    NotifiesIntoFull (withInterval s.takeNotification k₀) (withInterval s k) := by
  cases htref : s.rx.tref with
  | none => exact (withInterval_none (s := s.takeNotification) htref) ▸ answers_fault _
  | some t₀ =>
    rw [withInterval_some htref, withInterval_some (s := s.takeNotification) htref]
    exact h _

theorem notifiesIntoFull_ite {c : Prop} [Decidable c] {r₀' r' : Result} (hpos : NotifiesIntoFull r₀ r)
    (hneg : NotifiesIntoFull r₀' r') : NotifiesIntoFull (if c then r₀ else r₀') (if c then r else r') := by
  split <;> assumption

/-- The handler's exit neither notifies nor turns a fault into an answer. -/
theorem NotifiesIntoFull.andThen_rxExit (h : NotifiesIntoFull r₀ r) :
    NotifiesIntoFull (andThen r₀ fun m => .next (rxExit m)) (andThen r fun m => .next (rxExit m)) := by
  refine answers_andThen h fun m hm => answers_next.2 fun hslot => ?_
  have hslot_m : m.notifySlot ≠ none := by
    unfold rxExit at hslot
    split at hslot <;> exact hslot
  rw [hm hslot_m, andThen_fault]

section
variable (hfull : s.notifySlot ≠ none)
include hfull

theorem rxEomHighFalling_notifiesIntoFull :
    NotifiesIntoFull (rxEomHighFalling s.takeNotification) (rxEomHighFalling s) :=
  notifiesIntoFull_withInterval fun d => by
    refine notifiesIntoFull_ite (notifiesIntoFull_of_keeps ?_) (notifiesIntoFull_raiseAbort _ _ hfull)
    split
    · exact answers_fault _
    · refine answers_next.2 ?_
      split <;> simp [ackStart]

/-- Every rule of the receiver: it goes on without a notification, or it ends in `notify`. -/
theorem rxTransition_notifiesIntoFull (p : Polarity) :
    NotifiesIntoFull (rxTransition p s.takeNotification) (rxTransition p s) := by
  have nothing : NotifiesIntoFull (.next s.takeNotification) (.next s) := notifiesIntoFull_next rfl
  have abort {r₀ : Result} (c : Cause) (d : Option Time) : NotifiesIntoFull r₀ (raiseAbort c d s) :=
    notifiesIntoFull_raiseAbort c d hfull
  have wrong : NotifiesIntoFull (rxWrongPolarity s.takeNotification) (rxWrongPolarity s) := abort _ _
  unfold rxTransition
  rw [State.takeNotification_rx]
  cases s.rx.phase with
  | idle => exact nothing
  | awaitStart => cases p; exacts [notifiesIntoFull_next rfl, nothing]
  | startLow =>
    cases p
    · exact wrong
    · exact notifiesIntoFull_withInterval fun d => notifiesIntoFull_ite (notifiesIntoFull_next rfl) (abort _ _)
  | startHigh =>
    cases p
    · exact notifiesIntoFull_withInterval fun d => notifiesIntoFull_ite (notifiesIntoFull_next rfl) (abort _ _)
    · exact wrong
  | dataLow =>
    cases p
    · exact wrong
    · refine notifiesIntoFull_withInterval fun d => ?_
      cases classify d; exacts [abort _ _, notifiesIntoFull_next rfl]
  | dataHigh =>
    cases p
    · exact notifiesIntoFull_withInterval fun d => notifiesIntoFull_ite
        (notifiesIntoFull_ite (notifiesIntoFull_next rfl) (notifiesIntoFull_next rfl)) (abort _ _)
    · exact wrong
  | eomLow =>
    cases p
    · exact wrong
    · refine notifiesIntoFull_withInterval fun d => ?_
      cases classify d; exacts [abort _ _, notifiesIntoFull_next rfl]
  | eomHigh => cases p; exacts [rxEomHighFalling_notifiesIntoFull hfull, wrong]
  | ackLow =>
    cases p
    · exact wrong
    · exact notifiesIntoFull_withInterval fun d => notifiesIntoFull_ite
        (notifiesIntoFull_ite (notifiesIntoFull_notify _ hfull) (notifiesIntoFull_next rfl)) (abort _ _)
  | ackHigh =>
    cases p
    · exact notifiesIntoFull_withInterval fun d => notifiesIntoFull_ite
        (notifiesIntoFull_ite (abort _ _) (notifiesIntoFull_next rfl)) (abort _ _)
    · exact wrong
  | done => exact nothing
  | abort => exact nothing

theorem rxStep_notifiesIntoFull : NotifiesIntoFull (rxStep s.takeNotification) (rxStep s) := by
  unfold rxStep
  rw [State.takeNotification_edgePending]
  split
  · exact notifiesIntoFull_next rfl
  · exact (rxTransition_notifiesIntoFull (s := rxEntry s) hfull _).andThen_rxExit

end

/-- Every callback but Done's leaves the slot as it is. -/
theorem txCallback_notifySlot (a : Alarm) (hdone : s.tx.phase ≠ .done) :
    Answers (fun t => t.notifySlot = s.notifySlot) (txCallback a s) := by
  unfold txCallback
  cases hphase : s.tx.phase with
  | idle => exact answers_next.2 rfl
  | startLow => exact answers_next.2 (State.driveTx_notifySlot s true)
  | startHigh => exact answers_next.2 (State.driveTx_notifySlot s false)
  | dataLow => exact answers_next.2 (State.driveTx_notifySlot s true)
  | dataHigh => exact answers_next.2 (by split <;> exact State.driveTx_notifySlot s false)
  | eomLow => exact answers_withTxLen fun _ => answers_next.2 (State.driveTx_notifySlot s true)
  | eomHigh => exact answers_withTxLen fun _ => answers_next.2 (State.driveTx_notifySlot s false)
  | ackLow => exact answers_next.2 (State.driveTx_notifySlot s true)
  | ackHigh => exact answers_next.2 (State.driveTx_notifySlot s false)
  | ackWait => exact answers_withTxLen fun _ => answers_next.2 (by split <;> rfl)
  | done => exact absurd hphase hdone

theorem txCallback_notifiesIntoFull (a : Alarm) (hfull : s.notifySlot ≠ none) :
    NotifiesIntoFull (txCallback a s.takeNotification) (txCallback a s) := by
  by_cases hdone : s.tx.phase = .done
  · have hcallback : txCallback a s = txDoneCallback s := by simp [txCallback, hdone]
    rw [hcallback]
    exact notifiesIntoFull_notify _ hfull
  · exact notifiesIntoFull_of_keeps (txCallback_notifySlot (s := s.takeNotification) a hdone)

theorem txStep_notifiesIntoFull (hfull : s.notifySlot ≠ none) :
    NotifiesIntoFull (txStep s.takeNotification) (txStep s) := by
  by_cases hfires : s.fires s.txTimer = true
  · obtain ⟨a, ha⟩ := State.exists_txTimer_of_fires hfires
    rw [txStep_of_fires ha hfires, txStep_of_fires (s := s.takeNotification) ha hfires]
    exact txCallback_notifiesIntoFull (s := { s with txTimer := none }) a hfull
  · rw [txStep_of_not_fires (s := s.takeNotification) (Bool.eq_false_iff.2 hfires)]
    exact notifiesIntoFull_next rfl

/-! ### UNWRITTEN_READ (R68, R71, R73, R82) and INDEX_RANGE (R24) -/

theorem withTxLen_none {k : Fin 17 → Result} (h : s.tx.len = none) : withTxLen s k = .fault .unwrittenRead := by
  simp [withTxLen, h]

/-- A rule that measures finds no reference edge. -/
theorem rxStep_of_tref_none {k : Time → Result} (hedge : s.edgeIs p = true) (htref : s.rx.tref = none)
    (hrule : rxTransition p (rxEntry s) = withInterval (rxEntry s) k) : rxStep s = .fault .unwrittenRead := by
  rw [rxStep_eq hedge hrule, withInterval_none (s := rxEntry s) htref, andThen_fault]

theorem rxStep_rising_of_tref_none (hedge : s.edgeIs .rising = true) (htref : s.rx.tref = none)
    (h : s.rx.phase = .startLow ∨ s.rx.phase = .dataLow ∨ s.rx.phase = .eomLow ∨ s.rx.phase = .ackLow) :
    rxStep s = .fault .unwrittenRead := by
  obtain h | h | h | h := h
  · exact rxStep_of_tref_none hedge htref (rxTransition_startLow_rising (s := rxEntry s) h)
  · exact rxStep_of_tref_none hedge htref (rxTransition_dataLow_rising (s := rxEntry s) h)
  · exact rxStep_of_tref_none hedge htref (rxTransition_eomLow_rising (s := rxEntry s) h)
  · exact rxStep_of_tref_none hedge htref (rxTransition_ackLow_rising (s := rxEntry s) h)

theorem rxStep_falling_of_tref_none (hedge : s.edgeIs .falling = true) (htref : s.rx.tref = none)
    (h : s.rx.phase = .startHigh ∨ s.rx.phase = .dataHigh ∨ s.rx.phase = .eomHigh ∨ s.rx.phase = .ackHigh) :
    rxStep s = .fault .unwrittenRead := by
  obtain h | h | h | h := h
  · exact rxStep_of_tref_none hedge htref (rxTransition_startHigh_falling (s := rxEntry s) h)
  · exact rxStep_of_tref_none hedge htref (rxTransition_dataHigh_falling (s := rxEntry s) h)
  · exact rxStep_of_tref_none hedge htref (rxTransition_eomHigh_falling (s := rxEntry s) h)
  · exact rxStep_of_tref_none hedge htref (rxTransition_ackHigh_falling (s := rxEntry s) h)

/-- The ACK decision, once the period of the EOM bit is in its window, reads the target (R252). -/
theorem rxStep_eomHigh_of_target_none {t₀ : Time} (htref : s.rx.tref = some t₀)
    (hwindow : inW (s.clock - t₀) Config.rxBitPeriod = true) (htarget : s.rx.target = none)
    (hphase : s.rx.phase = .eomHigh) (hedge : s.edgeIs .falling = true) : rxStep s = .fault .unwrittenRead := by
  rw [rxStep_eq_of_interval hedge htref (rxTransition_eomHigh_falling (s := rxEntry s) hphase), if_pos hwindow]
  simp [htarget]

/-- The EOM bit and the ACK sample look whether the byte is the last (R308, R309, R312). -/
theorem txCallback_of_len_none {a : Alarm} (hlen : s.tx.len = none)
    (h : s.tx.phase = .eomLow ∨ s.tx.phase = .eomHigh ∨ s.tx.phase = .ackWait) :
    txCallback a s = .fault .unwrittenRead := by
  obtain h | h | h := h <;> rw [txCallback, h] <;> exact withTxLen_none hlen

theorem dispatchStep_of_len_none (h : s.rx.len = none) : dispatchStep s = .fault .unwrittenRead := by
  simp [dispatchStep, h]

theorem dispatchStep_of_len_zero (h : s.rx.len = some 0) : dispatchStep s = .fault .indexRange := by
  have hempty : decode (s.deliveredBytes 0) = .rejected .emptyFrame := rfl
  simp [dispatchStep, h, hempty]

end Sys2Proof.Machine

namespace Sys2Proof.Proofs

open Sys2Proof.Machine

/-- Settles O44: `notify` by the slot, then each step that would notify, then the reads of fields without a value. -/
theorem modelFaultsStopTheStep : Obligations.ModelFaultsStopTheStep := by
  refine ⟨fun v s => ⟨fun hslot => notify_eq_next.2 ⟨hslot, rfl⟩, notify_of_full⟩,
    fun s t hfull => ⟨rxStep_notifiesIntoFull hfull t, txStep_notifiesIntoFull hfull t⟩,
    fun s hd hpoint hop => ?_, fun s => ⟨fun htref => ?_, fun t₀ htref hlo hhi => ?_⟩, fun s hfires hlen hphase => ?_⟩
  · rw [step_of_pcRuns hd (State.pcRuns_iff.2 (.inl hop)), pcStep_run hop, labelStep_dispatch hpoint]
    exact ⟨dispatchStep_of_len_none, dispatchStep_of_len_zero⟩
  · exact ⟨fun hphase hedge => rxStep_rising_of_tref_none hedge htref hphase,
      fun hphase hedge => rxStep_falling_of_tref_none hedge htref hphase⟩
  · exact rxStep_eomHigh_of_target_none htref (inW_iff.2 ⟨hlo, hhi⟩)
  · obtain ⟨a, ha⟩ := State.exists_txTimer_of_fires hfires
    rw [txStep_of_fires ha hfires]
    exact txCallback_of_len_none hlen hphase

end Sys2Proof.Proofs
end

section
/-! PROOFS. No agent's step takes time (R573): PC's operations one by one, then every move but a stretch of time, and
the step. -/

namespace Sys2Proof.Machine

variable {s t : State}

/-- Whatever next state the result answers has the clock of `s`. -/
def ClockKept (s : State) : Result → Prop := Answers fun t => t.clock = s.clock

theorem clockKept_next (h : t.clock = s.clock) : ClockKept s (.next t) := answers_next.2 h

/-! ### The receiver and the transmitter -/

theorem RuleLeaves.clock (h : RuleLeaves s t) : t.clock = s.clock := by
  cases h with
  | nothing | goesOn | completes => rfl
  | drivesAck => simp [ackStart]
  | aborts _ h =>
    obtain ⟨-, rfl⟩ := raiseAbort_eq_next.1 h
    rfl

@[simp] theorem rxExit_clock (m : State) : (rxExit m).clock = m.clock := by unfold rxExit; split <;> rfl

theorem rxStep_clockKept (s : State) : ClockKept s (rxStep s) := by
  unfold rxStep
  split
  · exact clockKept_next rfl
  · exact answers_andThen (rxTransition_leaves _ (rxEntry s)) fun m hm =>
      answers_next.2 ((rxExit_clock m).trans hm.clock)

theorem rxaStep_clockKept (s : State) : ClockKept s (rxaStep s) := by
  unfold rxaStep
  split
  · exact clockKept_next (by simp [rxaRelease])
  · exact clockKept_next rfl

/-- Every callback of the transmitter, phase by phase. -/
theorem txCallback_clockKept (a : Alarm) (s : State) : ClockKept s (txCallback a s) := by
  unfold txCallback
  cases s.tx.phase with
  | idle => exact clockKept_next rfl
  | startLow => exact clockKept_next (State.driveTx_clock s true)
  | startHigh => exact clockKept_next (State.driveTx_clock s false)
  | dataLow => exact clockKept_next (State.driveTx_clock s true)
  | dataHigh => exact clockKept_next (by split <;> exact State.driveTx_clock s false)
  | eomLow => exact answers_withTxLen fun _ => clockKept_next (State.driveTx_clock s true)
  | eomHigh => exact answers_withTxLen fun _ => clockKept_next (State.driveTx_clock s false)
  | ackLow => exact clockKept_next (State.driveTx_clock s true)
  | ackHigh => exact clockKept_next (State.driveTx_clock s false)
  | ackWait => exact answers_withTxLen fun _ => clockKept_next (by split <;> rfl)
  | done => exact answers_notify rfl

theorem txStep_clockKept (s : State) : ClockKept s (txStep s) := by
  unfold txStep
  split
  · exact clockKept_next rfl
  · split
    · exact txCallback_clockKept _ { s with txTimer := none }
    · exact clockKept_next rfl

theorem freeStep_clockKept (s : State) : ClockKept s (freeStep s) := by
  unfold freeStep
  split
  · exact clockKept_next rfl
  · split <;> exact clockKept_next rfl

/-! ### PC's operations -/

theorem sendStart_clockKept (why : SendFor) (f : List Byte) (s : State) : ClockKept s (sendStart why f s) := by
  intro t h
  obtain ⟨-, -, rfl⟩ := sendStart_eq_next.1 h
  rfl

theorem sendLaunch_clockKept (why : SendFor) (f : List Byte) (s : State) : ClockKept s (sendLaunch why f s) := by
  unfold sendLaunch
  split
  · exact clockKept_next rfl
  · exact answers_refused _

theorem receiveStart_clockKept (s : State) : ClockKept s (receiveStart s) := by
  intro t h
  obtain ⟨-, la, -, rfl⟩ := receiveStart_eq_next.1 h
  rfl

theorem announceStart_clockKept (s : State) : ClockKept s (announceStart s) :=
  answers_withLa fun _ => sendStart_clockKept _ _ _

@[simp] theorem emitKey_clock (k : Byte) (s : State) : (emitKey k s).clock = s.clock := by
  unfold emitKey
  split <;> rfl

@[simp] theorem emitKeyEnd_clock (k : Byte) (s : State) : (emitKeyEnd k s).clock = s.clock := by
  unfold emitKeyEnd
  split <;> rfl

@[simp] theorem afterAlloc_clock (s : State) : (afterAlloc s).clock = s.clock := by
  unfold afterAlloc
  split <;> rfl

@[simp] theorem afterResolve_clock (s : State) : (afterResolve s).clock = s.clock := by
  unfold afterResolve
  split <;> rfl

@[simp] theorem afterAnnounce_clock (s : State) : (afterAnnounce s).clock = s.clock := by
  unfold afterAnnounce
  split <;> rfl

@[simp] theorem receiveResult_clock (n : Fin 17) (s : State) : (receiveResult n s).clock = s.clock := by
  unfold receiveResult
  split <;> rfl

@[simp] theorem allocResult_clock (acked : Bool) (s : State) : (allocResult acked s).clock = s.clock := by
  unfold allocResult
  split
  · split
    · rfl
    · exact afterAlloc_clock _
  · exact afterAlloc_clock _

@[simp] theorem sendResult_clock (why : SendFor) (acked : Bool) (s : State) :
    (sendResult why acked s).clock = s.clock := by
  cases why with
  | poll => exact allocResult_clock acked s
  | announce => exact afterAnnounce_clock s
  | reply => rfl

@[simp] theorem resolveEnd_clock (s : State) : (resolveEnd s).clock = s.clock := by
  obtain ⟨pa, log, hend⟩ := resolveEnd_eq s
  rw [hend]

/-! ### PC's program -/

theorem dispatchStep_clockKept (s : State) : ClockKept s (dispatchStep s) := by
  unfold dispatchStep
  split
  · exact answers_fault _
  · split
    · next i _ =>
      obtain ⟨as, has⟩ | ⟨-, hfault⟩ := exec_react i s
      · rw [has, react_eq]
        exact clockKept_next rfl
      · rw [hfault]
        exact answers_fault _
    · exact answers_fault _

theorem execute_clockKept (a : Action) (s : State) : ClockKept s (execute a s) := by
  cases a with
  | send g => exact sendStart_clockKept _ _ _
  | key k => exact clockKept_next (emitKey_clock k s)
  | log e => exact clockKept_next rfl
  | reannounce => exact clockKept_next rfl

theorem actStep_clockKept (s : State) : ClockKept s (actStep s) := by
  unfold actStep
  split
  · exact clockKept_next rfl
  · exact execute_clockKept _ _

theorem labelStep_clockKept (s : State) : ClockKept s (labelStep s) := by
  unfold labelStep
  cases s.pc.point with
  | boot => exact clockKept_next rfl
  | resolve => exact clockKept_next rfl
  | alloc => exact clockKept_next rfl
  | announce => exact announceStart_clockKept s
  | receive => exact receiveStart_clockKept s
  | dispatch => exact dispatchStep_clockKept s
  | act => exact actStep_clockKept s

theorem pcStep_clockKept (s : State) : ClockKept s (pcStep s) := by
  unfold pcStep
  cases s.pc.op with
  | run => exact labelStep_clockKept s
  | poll => exact sendStart_clockKept _ _ _
  | announce => exact announceStart_clockKept s
  | resolving => exact clockKept_next (by simp)
  | freeWait why f => exact sendLaunch_clockKept why f s
  | sending why =>
    dsimp only
    split
    · exact clockKept_next (sendResult_clock why _ s.takeNotification)
    · exact clockKept_next rfl
  | receiving =>
    dsimp only
    split
    · exact clockKept_next (receiveResult_clock _ s.takeNotification)
    · exact clockKept_next rfl
  | keying k since => exact clockKept_next (emitKeyEnd_clock k s)

/-! ### The moves and the step -/

theorem State.edidAnswers_clock (s : State) (r : EdidAnswer) : (s.edidAnswers r).clock = s.clock := by
  rw [State.edidAnswers_eq]
  split <;> rfl

/-- Of all moves only a stretch of time can move the clock. -/
theorem takeMove_clockKept_or_wait (m : Move) (s : State) :
    ClockKept s (takeMove m s) ∨ ∃ us, m = .wait us ∧ takeMove m s = .next (s.timePasses us) := by
  cases m with
  | rx => exact .inl (rxStep_clockKept s)
  | rxa => exact .inl (rxaStep_clockKept s)
  | tx => exact .inl (txStep_clockKept s)
  | freeSample => exact .inl (freeStep_clockKept s)
  | pc =>
    cases h : s.pcReady with
    | true => exact .inl (takeMove_pc_of_ready h ▸ pcStep_clockKept s)
    | false => exact .inl (takeMove_pc_of_blocked h ▸ clockKept_next rfl)
  | wait us => exact .inr ⟨us, rfl, rfl⟩
  | env low => exact .inl (clockKept_next (State.driveEnv_clock s low))
  | edid r => exact .inl (clockKept_next (State.edidAnswers_clock s r))
  | host => exact .inl (clockKept_next rfl)

@[simp] theorem State.nextMove_clock (s : State) : s.nextMove.2.clock = s.clock := by
  unfold State.nextMove
  split <;> rfl

end Sys2Proof.Machine

namespace Sys2Proof.Proofs

open Sys2Proof.Machine

/-- Settles O56: PC's step and every move but a stretch of time keep the clock, and a stretch is at most as long as
asked. -/
theorem onlyWaitsMoveTheClock : Obligations.OnlyWaitsMoveTheClock := by
  intro s t hstep
  have hd : s.halfDuplexBroken = false := by
    by_contra hbroken
    cases (step_of_halfDuplexBroken (Bool.eq_true_of_not_eq_false hbroken)).symm.trans hstep
  cases hruns : s.pcRuns with
  | true =>
    rw [step_of_pcRuns hd hruns] at hstep
    exact .inl (pcStep_clockKept s t hstep)
  | false =>
    rw [step_of_pcBlocked hd hruns, agentStep] at hstep
    obtain hkept | ⟨us, hwait, hpasses⟩ := takeMove_clockKept_or_wait s.nextMove.1 s.nextMove.2
    · exact .inl ((hkept t hstep).trans (State.nextMove_clock s))
    · obtain rfl := next_inj.1 (hpasses.symm.trans hstep)
      exact .inr ⟨rfl, us, s.nextMove.2.timeLimit us, hwait, State.timeLimit_le us,
        congrArg (· + micros _) (State.nextMove_clock s)⟩

end Sys2Proof.Proofs
end

section
/-! PROOFS. The end of a run (R665): its conditions by name, the first state that meets them, and what the moves left in
the schedule do from there on. -/

namespace Sys2Proof.Machine

variable {s t u : State} {m : Move} {j k : Nat}

/-! ### The conditions by name -/

theorem isOutside_eq_false_iff :
    isOutside m = false ↔ (∀ low, m ≠ .env low) ∧ (∀ r, m ≠ .edid r) ∧ m ≠ .host := by
  cases m <;> simp [isOutside]

theorem State.scriptDone_iff : s.scriptDone = true ↔ ∀ m ∈ s.schedule, isOutside m = false := by
  simp [State.scriptDone]

theorem State.runEnded_iff : s.runEnded = true ↔ (∀ m ∈ s.schedule, isOutside m = false) ∧ Quiescent s := by
  rw [State.runEnded, Bool.and_eq_true, State.scriptDone_iff, State.quiescent_iff]

/-- The state's conditions as R665 lists them, the line with its three drivers. -/
theorem quiescent_iff_conditions :
    Quiescent s ↔
      s.pc.point = .receive ∧ s.pc.op = .receiving ∧ s.rx.phase = .awaitStart ∧ s.edgeArmed = true ∧
      s.tx.phase = .idle ∧ s.txTimer = none ∧ s.rxaTimer = none ∧ s.freeTimer = none ∧ s.notifySlot = none ∧
      s.rxDrive = false ∧ s.txDrive = false ∧ s.envLow = false := by
  rw [← State.line_iff]
  constructor <;>
    exact fun ⟨point, op, phase, armed, txIdle, txTimer, rxaTimer, freeTimer, slot, line⟩ =>
      ⟨point, op, phase, armed, txIdle, txTimer, rxaTimer, freeTimer, slot, line⟩

/-! ### The first state that can end a run -/

/-- `t` is `j` steps on from `s`, and of the states from `s` on the first that can end a run. -/
def FirstEnded (j : Nat) (s t : State) : Prop :=
  runFor j s = some t ∧ t.runEnded = true ∧ ∀ i, i < j → ∀ u, runFor i s = some u → u.runEnded = false

theorem firstEnded_zero_iff : FirstEnded 0 s t ↔ s = t ∧ t.runEnded = true := by simp [FirstEnded]

/-- A run that has ended goes no step further. -/
theorem not_firstEnded_succ_of_ended (h : s.runEnded = true) : ¬ FirstEnded (j + 1) s t := by
  rintro ⟨-, -, hbefore⟩
  simp [hbefore 0 j.succ_pos s rfl] at h

/-- Nor does a machine that has stopped. -/
theorem not_firstEnded_succ_of_stops (h : ∀ u, step s ≠ .next u) : ¬ FirstEnded (j + 1) s t := by
  rintro ⟨hrun, -, -⟩
  unfold runFor at hrun
  split at hrun
  · next u hu => exact h u hu
  · cases hrun

theorem firstEnded_succ_iff_of_next (h : s.runEnded = false) (hs : step s = .next u) :
    FirstEnded (j + 1) s t ↔ FirstEnded j u t := by
  simp only [FirstEnded, Nat.forall_lt_succ_left, runFor_succ_of_next _ hs, runFor_zero, Option.some.injEq, forall_eq',
    h, true_and]

theorem endOfRun_succ_of_stops (h : s.runEnded = false) (hstops : ∀ u, step s ≠ .next u) :
    endOfRun (k + 1) s = none := by
  rw [endOfRun, if_neg (by simp [h])]
  split
  · next u hu => exact absurd hu (hstops u)
  · rfl

theorem not_firstEnded_zero_of_not_ended (h : s.runEnded = false) : ¬ FirstEnded 0 s t := by
  rw [firstEnded_zero_iff]
  rintro ⟨rfl, ht⟩
  simp [h] at ht

/-- From a state that cannot end the run, the first that can is at least one step on. -/
theorem exists_firstEnded_iff_of_not_ended (h : s.runEnded = false) :
    (∃ j, j ≤ k + 1 ∧ FirstEnded j s t) ↔ ∃ j, j ≤ k ∧ FirstEnded (j + 1) s t := by
  constructor
  · rintro ⟨_ | j, hj, hfirst⟩
    · exact absurd hfirst (not_firstEnded_zero_of_not_ended h)
    · exact ⟨j, Nat.le_of_succ_le_succ hj, hfirst⟩
  · rintro ⟨j, hj, hfirst⟩
    exact ⟨j + 1, Nat.succ_le_succ hj, hfirst⟩

theorem endOfRun_eq_some_iff_of_ended (h : s.runEnded = true) :
    endOfRun k s = some t ↔ ∃ j, j ≤ k ∧ FirstEnded j s t := by
  rw [endOfRun_of_ended k h, Option.some_inj]
  constructor
  · rintro rfl
    exact ⟨0, k.zero_le, firstEnded_zero_iff.2 ⟨rfl, h⟩⟩
  · rintro ⟨_ | j, -, hfirst⟩
    · exact (firstEnded_zero_iff.1 hfirst).1
    · exact absurd hfirst (not_firstEnded_succ_of_ended h)

/-- `endOfRun` answers the first state that can end the run, exactly where one is at most `k` steps on. -/
theorem endOfRun_eq_some_iff : endOfRun k s = some t ↔ ∃ j, j ≤ k ∧ FirstEnded j s t := by
  induction k generalizing s with
  | zero =>
    cases h : s.runEnded with
    | true => exact endOfRun_eq_some_iff_of_ended h
    | false => simp [endOfRun, h, not_firstEnded_zero_of_not_ended h]
  | succ k ih =>
    cases h : s.runEnded with
    | true => exact endOfRun_eq_some_iff_of_ended h
    | false =>
      rw [exists_firstEnded_iff_of_not_ended h]
      by_cases hnext : ∃ u, step s = .next u
      · obtain ⟨u, hu⟩ := hnext
        simp only [endOfRun_succ_of_next k h hu, firstEnded_succ_iff_of_next h hu, ih]
      · have hstops := not_exists.1 hnext
        simp [endOfRun_succ_of_stops h hstops, not_firstEnded_succ_of_stops hstops]

/-! ### The moves that are left -/

theorem freeStep_keyq (s : State) : Answers (fun t => t.keyq = s.keyq) (freeStep s) := by
  unfold freeStep
  split
  · exact answers_next.2 rfl
  · split <;> exact answers_next.2 rfl

/-- While PC is blocked, only HOST touches the key channel. -/
theorem takeMove_keyq_of_pcBlocked (hready : s.pcReady = false) (hm : m ≠ .host) :
    Answers (fun t => t.keyq = s.keyq) (takeMove m s) := by
  cases m with
  | rx => exact (rxStep_keptByRx s).mono fun _ k => k.keyq
  | rxa => exact (rxaStep_keptByRxa s).mono fun _ k => k.byRx.keyq
  | tx => exact (txStep_keptByTx s).mono fun _ k => k.keyq
  | freeSample => exact freeStep_keyq s
  | pc => exact takeMove_pc_of_blocked hready ▸ answers_next.2 rfl
  | wait us => exact answers_next.2 rfl
  | env low => exact answers_next.2 (State.driveEnv_keyq s low)
  | edid r =>
    refine answers_next.2 ?_
    rw [State.edidAnswers_eq]
    split <;> rfl
  | host => exact absurd rfl hm

theorem Quiescent.pcBlocked (h : Quiescent s) : s.pcReady = false := by simp [State.pcReady, h.op, h.slot]

/-- In a quiescent state PC is blocked in `receive()` and no send is in flight, so that a step takes the next move. -/
theorem Quiescent.step_eq {rest : List Move} (h : Quiescent s) (hschedule : s.schedule = m :: rest) :
    step s = takeMove m { s with schedule := rest } := by
  have hd : s.halfDuplexBroken = false := by simp [State.halfDuplexBroken, State.sendInFlight, h.txIdle]
  have hruns : s.pcRuns = false := by simp [State.pcRuns, h.op]
  rw [step_of_pcBlocked hd hruns, agentStep, State.nextMove_of_cons hschedule]

/-- No condition on the state itself reads the schedule. -/
theorem Quiescent.withSchedule (h : Quiescent s) (rest : List Move) : Quiescent { s with schedule := rest } :=
  { h with }

/-- A move left in the schedule is no outside move, so that it neither pulls the line low nor takes a key. -/
theorem step_keeps_runEnded (hended : s.runEnded = true) (hedge : s.edgePending = none) (hschedule : s.schedule ≠ []) :
    ∃ t, step s = .next t ∧ t.runEnded = true ∧ t.edgePending = none ∧ t.observed = s.observed := by
  obtain ⟨hdone, h⟩ := State.runEnded_iff.1 hended
  obtain ⟨m, rest, hcons⟩ := List.exists_cons_of_ne_nil hschedule
  obtain ⟨hm, hrest⟩ := List.forall_mem_cons.1 (hcons ▸ hdone)
  obtain ⟨henv, -, hhost⟩ := isOutside_eq_false_iff.1 hm
  obtain ⟨t, hmove, ⟨clock, edidRsp, keyq, rfl⟩, hkeyq⟩ :=
    ((h.withSchedule rest).takeMove_channelsChanged hedge (henv true)).and_answers
      (takeMove_keyq_of_pcBlocked (h.withSchedule rest).pcBlocked hhost)
  obtain rfl : keyq = s.keyq := hkeyq
  exact ⟨_, (h.step_eq hcons).trans hmove, State.runEnded_iff.2 ⟨hrest, { h with }⟩, hedge, rfl⟩

end Sys2Proof.Machine

namespace Sys2Proof.Proofs

open Sys2Proof.Machine

/-- Settles O43: the conditions are the script's and those of `Quiescent`, `endOfRun` answers the first state that meets
them, and the moves left in the schedule keep them. -/
theorem runEndsAtFirstQuietState : Obligations.RunEndsAtFirstQuietState := by
  refine ⟨fun s => ?_, fun k s t => endOfRun_eq_some_iff, fun s => step_keeps_runEnded, fun s => rfl⟩
  simp only [State.runEnded_iff, isOutside_eq_false_iff, quiescent_iff_conditions]

end Sys2Proof.Proofs
end

section
/-! PROOFS. Power-on reset (R111, R620). -/

namespace Sys2Proof.Machine

/-- A buffer with no byte listed reads 0x00 everywhere. -/
theorem Memory.read_nil (i : BitVec 4) : Memory.read [] i = 0x00#8 := rfl

end Sys2Proof.Machine

namespace Sys2Proof.Proofs

open Sys2Proof.Machine

/-- Settles O1: `State.reset` writes each value of the POR column out, the receiver's, the transmitter's, PC's and the
rest in turn, and an empty buffer reads 0x00. -/
theorem resetIsPowerOn : Obligations.ResetIsPowerOn := by
  refine ⟨⟨rfl, rfl, rfl, rfl, rfl, rfl, rfl, Memory.read_nil, rfl, rfl⟩,
    ⟨rfl, Memory.read_nil, rfl, rfl, rfl, rfl, rfl⟩, ?_, ?_⟩
  · exact ⟨rfl, rfl, rfl, rfl, rfl, rfl⟩
  · exact ⟨rfl, rfl, rfl, rfl, rfl, rfl, rfl, rfl, rfl⟩

end Sys2Proof.Proofs
end
